-- ==== Sys2Proof/Word.lean ====
section
/-! DEFINITION. The bit vectors of the block: payload bytes, the 32-bit id container (rules R20, R21, R53) and the
command word (rule R76). -/
namespace Sys2Proof

/-- One payload byte; bit 7 is the most significant (rule R54). -/
abbrev Byte := BitVec 8

/-- The 32-bit `id` of a Frame Record (`FR_ID_W`, rule R20) and of a Wire Message (rule R21). -/
abbrev Word := BitVec 32

/-- The 4-bit `length` and `dlc` fields (`LEN_W`, `DLC_W`, rule R5). -/
abbrev Len := BitVec 4

end Sys2Proof
end

