-- ==== Sys2Proof/Syntax.lean ====
section
/-! DEFINITION. The two data shapes (rules R20, R21), the operations (rule R76) with the four wire id classes (rule R73),
and the words an agent presents at a port (rules R76, R79, R80). -/
namespace Sys2Proof

/-- A Frame Record (rule R20). `data` holds exactly `min(length, 8)` bytes when the record is well formed
(`FrameRecord.wf`); bytes of a physical buffer beyond that are no part of the record (rule R10). -/
structure FrameRecord where
  id : Word
  length : Len
  isRemoteRequest : Bool
  isExtended : Bool
  data : List Byte
  deriving DecidableEq, Repr, Inhabited

/-- A Wire Message (rule R21): 8 data bytes, of which the first `min(dlc, 8)` carry meaning. -/
structure WireMessage where
  id : Word
  dlc : Len
  data : Vector Byte 8
  deriving DecidableEq, Repr, Inhabited

/-- The queue a queue operation acts on: command bit `q` = 0 is `RXQ`, 1 is `TXQ` (rules R22, R76). -/
inductive QueueSel where
  | rx
  | tx
  deriving DecidableEq, Repr

/-- The two execution contexts that issue operations (rules R11, R165). The Engine issues none. -/
inductive Context where
  | poll
  | notify
  deriving DecidableEq, Repr

/-- One constructor per row of the opcode table: the 21 operations of rule R76, then the four classes of a wire id
word (rule R73), each with the 30 bits below its two flag bits. -/
inductive Instr where
  | encode (f : FrameRecord)
  | decode (w : WireMessage)
  | tryPush (q : QueueSel) (f : FrameRecord)
  | tryPop (q : QueueSel)
  | isEmpty (q : QueueSel)
  | isFull (q : QueueSel)
  | clear (q : QueueSel)
  | rdPushed (q : QueueSel)
  | rdDropped (q : QueueSel)
  | beginRun
  | available
  | getNextFrame
  | send (f : FrameRecord)
  | reset
  | stop
  | receivedCount
  | sentCount
  | sendErrorCount
  | notifyRx (w : WireMessage)
  | notifyTx (w : WireMessage)
  | notifyErr (w : WireMessage)
  | wireidStdData (a : BitVec 30)
  | wireidStdRemote (a : BitVec 30)
  | wireidExtData (a : BitVec 30)
  | wireidExtRemote (a : BitVec 30)
  deriving DecidableEq, Repr

/-- What an agent presents at a port. `command` is the 6-bit command word (rule R76) beside an operand bus of 102 bits:
a Frame Record fills the bus (`FR[101:0]`, rule R79), a Wire Message uses bits 99:0 (`WM[99:0]`, rule R80), an operation
without operand reads none of it. `wireId` is a Wire Message id word on its own (rules R70, R73).
DESIGN CHOICE (log entry 2): the bus and the second form are the model's; the spec fixes the fields only. -/
inductive PortWord where
  | command (cmd : BitVec 6) (operand : BitVec 102)
  | wireId (id : Word)
  deriving DecidableEq, Repr

end Sys2Proof
end

