-- ==== Sys2Proof/Config.lean ====
section
/-! DEFINITION. The parameters (rule R5), the codec's constants (rule R71) and the free values: opaque constants without a
body, of which no proof can know a value. -/
namespace Sys2Proof.Config

/-- `FLAG_EFF`, wire id bit 31 (rule R71). -/
def flagEff : Word := 0x80000000#32

/-- `FLAG_RTR`, wire id bit 30 (rule R71). -/
def flagRtr : Word := 0x40000000#32

/-- `MAX_LEN`, the largest legal length and DECODE's clamp (rule R71). -/
def maxLen : Nat := 8

/-- Default `RX_CAP` (rule R5). -/
def rxCapDefault : Nat := 64

/-- Default `TX_CAP` (rule R5). -/
def txCapDefault : Nat := 16

/-- The two readings of `ID_MASK` (rules R5, R74; decision D5): keep wire id bit 29, the default, or drop it. -/
inductive IdMask where
  | keepBit29
  | dropBit29
  deriving DecidableEq, Repr

/-- The mask DECODE applies to a wire id (rules R5, R71). -/
def IdMask.word : IdMask → Word
  | .keepBit29 => 0x3FFFFFFF#32
  | .dropBit29 => 0x1FFFFFFF#32

/-- The build parameters no operation changes (rule R5). -/
structure Params where
  syncLag : Bool
  idMask : IdMask
  deriving DecidableEq, Repr

/-- `T.cfg` without the capacities, which are the queues' own (rule R33). -/
structure EngineConfig where
  bitrate : Nat
  clockHz : Nat
  rxPin : Nat
  txPin : Nat
  deriving DecidableEq, Repr

/-- The default build parameters (rule R5): `SYNC_LAG = false`, `ID_MASK = 0x3FFFFFFF`. -/
def Params.default : Params := { syncLag := false, idMask := .keepBit29 }

/-- The Engine configuration of the machine at reset. DESIGN CHOICE, unsafe (log entry 8): the spec gives no value and no
rule reads one. -/
def EngineConfig.unset : EngineConfig := { bitrate := 0, clockHz := 0, rxPin := 0, txPin := 0 }

/-- FREE VALUE, safe (log entry 4): the answer that the Engine of source `k` gives to its `n`-th call that has no answer
laid down in the state (rule R136). Each Transport has a source of its own (rule R40; log entry 15). -/
opaque engineAnswer : Nat → Nat → Bool

/-- FREE VALUE, safe (log entry 6): the `n`-th draw of a lagging pointer copy from source `k` (rule R61), reduced into its
bounds where it is used. -/
opaque lagPick : Nat → Nat → Nat

/-- FREE VALUE, safe (log entry 7): byte `i` of the `n`-th message ENCODE makes from source `k`, for `i` at or above its
length (rule R90: "not meaningful, any value"). -/
opaque tailByte : Nat → Nat → Nat → Byte

/-- FREE VALUE, safe (log entry 5): what slot `i` of a queue holds while nothing has written it (rule R41:
"unspecified"; U21: "any value, never read"). Every Transport instance shares these values (log entry 15). -/
opaque unwrittenSlot : QueueSel → Nat → FrameRecord

end Sys2Proof.Config
end

