-- ==== Sys2Proof/WellFormed.lean ====
section
/-! DEFINITION. Which operands are Frame Records at all (rule R20), which of these are valid (rule R9), and the two
equalities of rule R10. -/
namespace Sys2Proof

/-- The number of data bytes a record of this length carries (rule R20). -/
def Len.bytes (n : Len) : Nat := min n.toNat Config.maxLen

/-- Rule R20: a Frame Record's data is a sequence of exactly `min(length, 8)` bytes. -/
def FrameRecord.wf (f : FrameRecord) : Bool := f.data.length == Len.bytes f.length

/-- Rule R9: a record is length-valid when its length is at most 8. -/
def FrameRecord.lengthValid (f : FrameRecord) : Bool := f.length.toNat ≤ Config.maxLen

/-- `Valid(f)` of rule R9. -/
def FrameRecord.valid (f : FrameRecord) : Bool :=
  f.lengthValid && f.wf && (if f.isExtended then decide (f.id.toNat < 2 ^ 29) else decide (f.id.toNat < 2 ^ 11))

/-- The data bytes of a Wire Message that carry meaning, `data[0..min(dlc,8))` (rule R21). -/
def WireMessage.payload (w : WireMessage) : List Byte := w.data.toList.take (Len.bytes w.dlc)

/-- Equivalent Wire Messages (rule R10): same id, same dlc, same meaningful bytes. -/
def WireMessage.equiv (v w : WireMessage) : Bool := v.id == w.id && v.dlc == w.dlc && v.payload == w.payload

/-- An operation is well formed when its Frame Record operand is one (rule R20); every other operand is. -/
def Instr.wf : Instr → Bool
  | .encode f => f.wf
  | .decode _ => true
  | .tryPush _ f => f.wf
  | .tryPop _ => true
  | .isEmpty _ => true
  | .isFull _ => true
  | .clear _ => true
  | .rdPushed _ => true
  | .rdDropped _ => true
  | .beginRun => true
  | .available => true
  | .getNextFrame => true
  | .send f => f.wf
  | .reset => true
  | .stop => true
  | .receivedCount => true
  | .sentCount => true
  | .sendErrorCount => true
  | .notifyRx _ => true
  | .notifyTx _ => true
  | .notifyErr _ => true
  | .wireidStdData _ => true
  | .wireidStdRemote _ => true
  | .wireidExtData _ => true
  | .wireidExtRemote _ => true

end Sys2Proof
end

