-- ==== Sys2Proof/Decode.lean ====
section
/-! DEFINITION. Decoding the words presented at a port (rules R73, R76, R77, R79, R80), total, rejecting by name; then the
encoder, from the same tables; then the reading of an opcode-table word. -/
namespace Sys2Proof

/-- Why a command word is no operation (rule R77). -/
inductive DecodeError where
  /-- Operation codes 21 to 31. -/
  | reservedCode (op : Nat)
  /-- `q = 1` with an operation that takes no queue. -/
  | strayQueueBit (op : Nat)
  deriving DecidableEq, Repr

/-- Payload byte `i` at bits `lo + 8i + 7 : lo + 8i` (rules R79, R80). -/
def byteAt {n : Nat} (v : BitVec n) (lo i : Nat) : Byte := v.extractLsb' (lo + 8 * i) 8

/-- The eight payload bytes whose first lies at bit `lo`. -/
def bytesAt {n : Nat} (v : BitVec n) (lo : Nat) : List Byte :=
  [byteAt v lo 0, byteAt v lo 1, byteAt v lo 2, byteAt v lo 3, byteAt v lo 4, byteAt v lo 5, byteAt v lo 6, byteAt v lo 7]

/-- The Frame Record of `FR[101:0]` (rule R79); payload bits at index `>= length` are don't-care. -/
def unpackFrame (v : BitVec 102) : FrameRecord :=
  { id := v.extractLsb' 0 32
    length := v.extractLsb' 34 4
    isRemoteRequest := v.getLsbD 33
    isExtended := v.getLsbD 32
    data := (bytesAt v 38).take (Len.bytes (v.extractLsb' 34 4)) }

/-- The Wire Message of `WM[99:0]` (rule R80). -/
def unpackWire (v : BitVec 100) : WireMessage :=
  { id := v.extractLsb' 0 32
    dlc := v.extractLsb' 32 4
    data := #v[byteAt v 36 0, byteAt v 36 1, byteAt v 36 2, byteAt v 36 3, byteAt v 36 4, byteAt v 36 5,
      byteAt v 36 6, byteAt v 36 7] }

/-- The Wire Message on the operand bus: bits 99:0 (rule R80). -/
def unpackWireOperand (v : BitVec 102) : WireMessage := unpackWire (v.extractLsb' 0 100)

/-- `cmd[0]` as a queue (rule R76): 0 is `RXQ`, 1 is `TXQ`. -/
def queueOfBit (b : Bool) : QueueSel := if b then .tx else .rx

/-- An operation that takes no queue: `q` must be 0 (rules R76, R77). -/
def withoutQueue (op : Nat) (q : Bool) (i : Instr) : Except DecodeError Instr :=
  if q then .error (.strayQueueBit op) else .ok i

/-- The operation of code `op` with queue bit `q` and operand bus `v` (rule R76). -/
def decodeOp (op : Nat) (q : Bool) (v : BitVec 102) : Except DecodeError Instr :=
  match op with
  | 0 => withoutQueue op q (.encode (unpackFrame v))
  | 1 => withoutQueue op q (.decode (unpackWireOperand v))
  | 2 => .ok (.tryPush (queueOfBit q) (unpackFrame v))
  | 3 => .ok (.tryPop (queueOfBit q))
  | 4 => .ok (.isEmpty (queueOfBit q))
  | 5 => .ok (.isFull (queueOfBit q))
  | 6 => .ok (.clear (queueOfBit q))
  | 7 => .ok (.rdPushed (queueOfBit q))
  | 8 => .ok (.rdDropped (queueOfBit q))
  | 9 => withoutQueue op q .beginRun
  | 10 => withoutQueue op q .available
  | 11 => withoutQueue op q .getNextFrame
  | 12 => withoutQueue op q (.send (unpackFrame v))
  | 13 => withoutQueue op q .reset
  | 14 => withoutQueue op q .stop
  | 15 => withoutQueue op q .receivedCount
  | 16 => withoutQueue op q .sentCount
  | 17 => withoutQueue op q .sendErrorCount
  | 18 => withoutQueue op q (.notifyRx (unpackWireOperand v))
  | 19 => withoutQueue op q (.notifyTx (unpackWireOperand v))
  | 20 => withoutQueue op q (.notifyErr (unpackWireOperand v))
  | _ => .error (.reservedCode op)

/-- The class of a wire id word, told from bits 31:30 alone (rule R73). -/
def decodeWireId (id : Word) : Instr :=
  let a := id.extractLsb' 0 30
  match id.getLsbD 31, id.getLsbD 30 with
  | false, false => .wireidStdData a
  | false, true => .wireidStdRemote a
  | true, false => .wireidExtData a
  | true, true => .wireidExtRemote a

/-- Decoding what an agent presents: `cmd[5:1]` is the code, `cmd[0]` the queue bit (rule R76). -/
def decode : PortWord → Except DecodeError Instr
  | .command cmd v => decodeOp (cmd.extractLsb' 1 5).toNat (cmd.getLsbD 0) v
  | .wireId id => .ok (decodeWireId id)

/-- A field placed with its bit 0 at bit `lo` of an `n`-bit word. -/
def place {w : Nat} (n lo : Nat) (v : BitVec w) : BitVec n := v.setWidth n <<< lo

/-- The eight payload bytes placed from bit `lo` on: byte `i` at bits `lo + 8i + 7 : lo + 8i` (rules R79, R80). -/
def placeBytes (n lo : Nat) (b : Nat → Byte) : BitVec n :=
  place n lo (b 0) ||| place n (lo + 8) (b 1) ||| place n (lo + 16) (b 2) ||| place n (lo + 24) (b 3) |||
    place n (lo + 32) (b 4) ||| place n (lo + 40) (b 5) ||| place n (lo + 48) (b 6) ||| place n (lo + 56) (b 7)

/-- `FR[101:0]` of a record (rule R79), with the byte `tail i` in the don't-care payload bits of each index `i` at or above
its length. -/
def packFrameWith (tail : Nat → Byte) (f : FrameRecord) : BitVec 102 :=
  place 102 0 f.id ||| place 102 32 (BitVec.ofBool f.isExtended) ||| place 102 33 (BitVec.ofBool f.isRemoteRequest) |||
    place 102 34 f.length ||| placeBytes 102 38 (fun i => f.data.getD i (tail i))

/-- The `FR[101:0]` that the encoder presents as an operand: 0 in the don't-care payload bits (DESIGN CHOICE, log entry 2). -/
def packFrame (f : FrameRecord) : BitVec 102 := packFrameWith (fun _ => 0) f

/-- `WM[99:0]` of a message (rule R80). -/
def packWire (w : WireMessage) : BitVec 100 :=
  place 100 0 w.id ||| place 100 32 w.dlc ||| placeBytes 100 36 (fun i => w.data.toList.getD i 0)

/-- The operand bus with a Wire Message on bits 99:0 and 0 above. -/
def packWireOperand (w : WireMessage) : BitVec 102 := (packWire w).setWidth 102

/-- The queue bit of a queue (rule R76). -/
def bitOfQueue : QueueSel → Bool
  | .rx => false
  | .tx => true

/-- The command word `op << 1 | q` (rule R76). -/
def commandWord (op : Nat) (q : Bool) : BitVec 6 := BitVec.ofNat 5 op ++ BitVec.ofBool q

/-- A wire id word: the two flag bits above the 30 bits `a` (rule R73). -/
def wireIdWord (ext rtr : Bool) (a : BitVec 30) : Word :=
  place 32 31 (BitVec.ofBool ext) ||| place 32 30 (BitVec.ofBool rtr) ||| place 32 0 a

/-- The word an agent presents for an operation (rules R76, R79, R80), or the wire id word of a class (rule R73). -/
def encode : Instr → PortWord
  | .encode f => .command (commandWord 0 false) (packFrame f)
  | .decode w => .command (commandWord 1 false) (packWireOperand w)
  | .tryPush q f => .command (commandWord 2 (bitOfQueue q)) (packFrame f)
  | .tryPop q => .command (commandWord 3 (bitOfQueue q)) 0
  | .isEmpty q => .command (commandWord 4 (bitOfQueue q)) 0
  | .isFull q => .command (commandWord 5 (bitOfQueue q)) 0
  | .clear q => .command (commandWord 6 (bitOfQueue q)) 0
  | .rdPushed q => .command (commandWord 7 (bitOfQueue q)) 0
  | .rdDropped q => .command (commandWord 8 (bitOfQueue q)) 0
  | .beginRun => .command (commandWord 9 false) 0
  | .available => .command (commandWord 10 false) 0
  | .getNextFrame => .command (commandWord 11 false) 0
  | .send f => .command (commandWord 12 false) (packFrame f)
  | .reset => .command (commandWord 13 false) 0
  | .stop => .command (commandWord 14 false) 0
  | .receivedCount => .command (commandWord 15 false) 0
  | .sentCount => .command (commandWord 16 false) 0
  | .sendErrorCount => .command (commandWord 17 false) 0
  | .notifyRx w => .command (commandWord 18 false) (packWireOperand w)
  | .notifyTx w => .command (commandWord 19 false) (packWireOperand w)
  | .notifyErr w => .command (commandWord 20 false) (packWireOperand w)
  | .wireidStdData a => .wireId (wireIdWord false false a)
  | .wireidStdRemote a => .wireId (wireIdWord false true a)
  | .wireidExtData a => .wireId (wireIdWord true false a)
  | .wireidExtRemote a => .wireId (wireIdWord true true a)

/-- The port word of an opcode-table word. A row of 32 bits is a wire id word. Any other is a command word in the low
6 bits of its first byte, whose bits 7:6 are no part of it and must be 0, with the operand bits from bit 8 on.
DESIGN CHOICE (log entry 2): the spec lays a command word out in no byte. -/
def portWordOfTable (nbits w : Nat) : Option PortWord :=
  if nbits = 32 then
    if w < 2 ^ 32 then some (.wireId (BitVec.ofNat 32 w)) else none
  else if w % 256 < 64 then some (.command (BitVec.ofNat 6 w) (BitVec.ofNat 102 (w / 256)))
  else none

/-- The instruction the decoder reads from the opcode-table word `w` of `nbits` bits; operand bits above `nbits` are 0. -/
def decodeTableWord (nbits w : Nat) : Option Instr :=
  match portWordOfTable nbits w with
  | some p =>
    match decode p with
    | .ok i => some i
    | .error _ => none
  | none => none

end Sys2Proof
end

