-- ==== Sys2Proof/Machine/State.lean ====
section
/-! DEFINITION. The state of the block (file 10_state.md of the spec), the ways a step can stop, and the state after power-on
reset (rules R41, R180). -/
namespace Sys2Proof.Machine

/-- Slot storage of a queue (rule R23): the slots that have been written, by index. An unlisted slot has been written by
nothing since power-on. Canonical form: `Memory.wf`. -/
abbrev Memory := List (Nat × FrameRecord)

/-- One Frame Queue (rules R22 to R28). `cap` is `Q.CAP`, also named `T.cfg.rxCap` or `T.cfg.txCap` (rule R33).
`pushes`, `pops` count the successful operations since the last reset or CLEAR and `pushesSeen`, `popsSeen` are the copies
of rule R61. `popped` and `cleared` are the observations rule R110 is stated over (log entry 9). -/
structure Queue where
  cap : Nat
  slots : Memory
  wptr : Nat
  rptr : Nat
  count : Nat
  pushed : Nat
  dropped : Nat
  pushes : Nat
  pops : Nat
  pushesSeen : Nat
  popsSeen : Nat
  popped : Nat
  cleared : Nat
  deriving DecidableEq, Repr

/-- `T.run_state` (rule R30). -/
inductive RunState where
  | stopped
  | running
  deriving DecidableEq, Repr

/-- `T.engine`, the handle to the Engine (rule R34). -/
inductive EngineHandle where
  | absent
  | present
  deriving DecidableEq, Repr

/-- The three notification events with the callback's Wire Message (rules R85, R157). -/
inductive Notification where
  | rxComplete (w : WireMessage)
  | txComplete (w : WireMessage)
  | error (w : WireMessage)
  deriving DecidableEq, Repr

/-- A notification that is going to preempt POLL after `gap` further preemption points (rules R66, R160; log entry 3). -/
structure Arrival where
  gap : Nat
  event : Notification
  deriving DecidableEq, Repr

/-- An operation presented at a port by a context (rules R11, R64; log entry 1). -/
structure Request where
  context : Context
  word : PortWord
  deriving DecidableEq, Repr

/-- The sub-cases of MisuseError (rule R150). -/
inductive MisuseKind where
  | getNextWhenEmpty
  | beginWhileRunning
  | notRunning
  | encodeLength
  deriving DecidableEq, Repr

/-- The four error classes (rule R150). -/
inductive ErrorClass where
  | queueFull
  | engineRejected
  | engineError
  | misuse (k : MisuseKind)
  deriving DecidableEq, Repr

/-- The value an operation returns to its caller (rule R8; column "result" of rule R76). `wireId` is what the id part of
DECODE reads from a wire id word (rules R73, R82). -/
inductive Result where
  | none
  | bool (b : Bool)
  | nat (n : Nat)
  | frame (f : FrameRecord)
  | optFrame (f : Option FrameRecord)
  | wire (w : WireMessage)
  | wireId (isExtended isRemoteRequest : Bool) (id : Word)
  deriving DecidableEq, Repr

/-- The choices that are free, as inputs: Engine answers laid down (`answers`, first call first) and draws of rule R61
(`picks`), each with the counter of the free values used when none is laid down; and the counter of free tail bytes
(log entries 4, 6, 7). `source` numbers the Transport whose free values they are (log entry 15). The model's own fields. -/
structure Oracle where
  source : Nat
  answers : List Bool
  asked : Nat
  picks : List Nat
  picked : Nat
  tails : Nat
  deriving DecidableEq, Repr

/-- The whole machine. `started` is the configuration the Engine was started with while this Transport's callback is
registered, that is, while notifications are enabled as a whole (rules R121, R158). `requests`, `issuer`, `arrivals`,
`oracle` are the model's own fields (log entries 1, 3, 4); `engineLog`, `result`, `cause` are observations (rules R36,
R150, R185). -/
structure State where
  rxq : Queue
  txq : Queue
  runState : RunState
  engine : EngineHandle
  started : Option Config.EngineConfig
  framesSent : Nat
  framesReceived : Nat
  sendErrors : Nat
  busErrors : Nat
  cfg : Config.EngineConfig
  params : Config.Params
  engineLog : List WireMessage
  result : Result
  cause : Option ErrorClass
  requests : List Request
  issuer : Context
  arrivals : List Arrival
  oracle : Oracle
  deriving DecidableEq, Repr

/-- Why the machine stops with a fault. The spec raises none. -/
inductive Fault where
  /-- Raised by `memRead` and `memWrite`: a slot index at or above the capacity, an address that does not exist (rules R50,
  R52). Safe: no state that keeps the queue invariant R26 raises it. -/
  | slotOutOfRange (index : Nat)
  deriving DecidableEq, Repr

/-- Why the machine gives an operation no next state. -/
inductive Refusal where
  /-- Raised by an arm of `exec` whose instruction has no meaning yet. Safe. -/
  | notModelled (mnemonic : String)
  /-- Raised by `step`: a reserved command word (rule R77). Safe: the spec has the model refuse it. -/
  | reserved (e : DecodeError)
  /-- Raised by BEGIN in Running, by AVAILABLE, GET_NEXT_FRAME, SEND, RESET, STOP in Stopped, and by ENCODE, SEND and the
  drain of AVAILABLE for a length above 8 (rules R150, R154). Safe: the spec has the model refuse it. -/
  | misuse (k : MisuseKind)
  /-- Raised by every meaning whose operation the issuing context may not issue (rule R165). Safe: the spec gives it no
  meaning. -/
  | wrongContext
  /-- Raised by NOTIFY_RX, NOTIFY_TX and NOTIFY_ERR in Stopped, where a notification does not occur (rules R158, R166).
  Safe. -/
  | notifyWhileStopped
  /-- Raised by CLEAR of RXQ when a NOTIFY_RX overlaps it (rules R104, R191). Safe: the spec gives the overlap no meaning. -/
  | clearOverlap
  deriving DecidableEq, Repr

/-- An empty queue of capacity `cap`, as power-on reset constructs it (rule R41). -/
def Queue.empty (cap : Nat) : Queue :=
  { cap := cap, slots := [], wptr := 0, rptr := 0, count := 0, pushed := 0, dropped := 0
    pushes := 0, pops := 0, pushesSeen := 0, popsSeen := 0, popped := 0, cleared := 0 }

/-- No free choice laid down, no free value used. -/
def Oracle.start : Oracle := { source := 0, answers := [], asked := 0, picks := [], picked := 0, tails := 0 }

/-- Power-on reset with the given capacities and parameters: "the construction of the block" (rules R41, R180, R181). -/
def State.powerOn (rxCap txCap : Nat) (cfg : Config.EngineConfig) (params : Config.Params) : State :=
  { rxq := Queue.empty rxCap, txq := Queue.empty txCap, runState := .stopped, engine := .absent, started := none
    framesSent := 0, framesReceived := 0, sendErrors := 0, busErrors := 0, cfg := cfg, params := params
    engineLog := [], result := .none, cause := none, requests := [], issuer := .poll, arrivals := []
    oracle := Oracle.start }

/-- The machine right after reset, with the default parameters of rule R5. -/
def State.reset : State :=
  State.powerOn Config.rxCapDefault Config.txCapDefault Config.EngineConfig.unset Config.Params.default

end Sys2Proof.Machine
end

