-- ==== Sys2Proof/Machine/Flags.lean ====
section
/-! DEFINITION. The two flags of a queue (rules R27, R60), the conservative tests each side makes when its copy of the other
side's progress lags, and the side that asks (rule R61). -/
namespace Sys2Proof.Machine

/-- `Q.empty` (rule R27); with SYNC_LAG the consumer's test `pushes_seen - pops = 0` (rule R61). -/
def Queue.emptyFlag (lag : Bool) (q : Queue) : Bool :=
  if lag then q.pushesSeen == q.pops else q.count == 0

/-- `Q.full` (rule R27); with SYNC_LAG the producer's test `pushes - pops_seen = CAP` (rule R61). -/
def Queue.fullFlag (lag : Bool) (q : Queue) : Bool :=
  if lag then q.pushes == q.popsSeen + q.cap else q.count == q.cap

/-- A copy that has reflected `seen` moves to a value between `seen` and `actual`, chosen by `pick`; it never moves
backwards (rule R61). -/
def advanceCopy (pick seen actual : Nat) : Nat := seen + pick % (actual - seen + 1)

/-- The consumer's copy of the write side is drawn anew (rule R61). Without SYNC_LAG there is no copy (rule R60). -/
def Queue.refreshConsumer (lag : Bool) (pick : Nat) (q : Queue) : Queue :=
  if lag then { q with pushesSeen := advanceCopy pick q.pushesSeen q.pushes } else q

/-- The producer's copy of the read side is drawn anew (rule R61). Without SYNC_LAG there is no copy (rule R60). -/
def Queue.refreshProducer (lag : Bool) (pick : Nat) (q : Queue) : Queue :=
  if lag then { q with popsSeen := advanceCopy pick q.popsSeen q.pops } else q

/-- The two sides of a queue (rule R58). -/
inductive Side where
  | producer
  | consumer
  deriving DecidableEq, Repr

/-- The side from which a context asks for a flag of a queue (rules R58, R61, R165): of RXQ NOTIFY is the producer and POLL
the consumer; of TXQ NOTIFY could only be the consumer. POLL is both sides of TXQ, and asks from the side whose own test the
flag is, `own` (DEDUCED, log entry 6). -/
def askingSide (own : Side) : Context → QueueSel → Side
  | .poll, .rx => .consumer
  | .notify, .rx => .producer
  | .notify, .tx => .consumer
  | .poll, .tx => own

/-- The copy of that side is drawn anew (rule R61). -/
def Queue.refreshTo (side : Side) (lag : Bool) (pick : Nat) (q : Queue) : Queue :=
  match side with
  | .producer => q.refreshProducer lag pick
  | .consumer => q.refreshConsumer lag pick

/-- `Q.empty` as that side sees the occupancy: the consumer by `pushes_seen - pops`, the producer by `pushes - pops_seen`
(rules R61, R188). -/
def Queue.emptyTo (side : Side) (lag : Bool) (q : Queue) : Bool :=
  match side with
  | .producer => if lag then q.pushes == q.popsSeen else q.count == 0
  | .consumer => q.emptyFlag lag

/-- `Q.full` as that side sees the occupancy (rules R61, R188). -/
def Queue.fullTo (side : Side) (lag : Bool) (q : Queue) : Bool :=
  match side with
  | .producer => q.fullFlag lag
  | .consumer => if lag then q.pushesSeen == q.pops + q.cap else q.count == q.cap

end Sys2Proof.Machine
end

