-- ==== Sys2Proof/Machine/Operands.lean ====
section
/-! DEFINITION. What the operations do with their operands: the Wire Frame Codec as functions (rules R82, R90, R91), the
bytes of a wire id (rule R53), and who may issue which operation (rule R165). -/
namespace Sys2Proof.Machine

/-- The wire id ENCODE assembles (rule R82): the flag bits are ORed in, nothing is masked. -/
def assembleId (f : FrameRecord) : Word :=
  f.id ||| (if f.isRemoteRequest then Config.flagRtr else 0) ||| (if f.isExtended then Config.flagEff else 0)

/-- Byte `i` of an encoded message: the record's byte below its length, else the free tail byte (rule R90). -/
def encodedByte (tail : Nat → Byte) (f : FrameRecord) (i : Nat) : Byte :=
  (f.data.take f.length.toNat).getD i (tail i)

/-- The Wire Message of a length-valid record (rule R90), with free bytes `tail` beyond its length. -/
def encodeFrame (tail : Nat → Byte) (f : FrameRecord) : WireMessage :=
  { id := assembleId f
    dlc := f.length
    data := #v[encodedByte tail f 0, encodedByte tail f 1, encodedByte tail f 2, encodedByte tail f 3,
      encodedByte tail f 4, encodedByte tail f 5, encodedByte tail f 6, encodedByte tail f 7] }

/-- `min(dlc, 8)` (rules R75, R91). -/
def clampLen (n : Len) : Len := if n.toNat ≤ Config.maxLen then n else 8

/-- The Frame Record of a Wire Message (rule R91), total. -/
def decodeWire (mask : Config.IdMask) (w : WireMessage) : FrameRecord :=
  { id := w.id &&& mask.word
    length := clampLen w.dlc
    isRemoteRequest := w.id.getLsbD 30
    isExtended := w.id.getLsbD 31
    data := w.payload }

/-- The all-zero record GET_NEXT_FRAME returns on an empty queue (rule R123). -/
def zeroFrame : FrameRecord := { id := 0, length := 0, isRemoteRequest := false, isExtended := false, data := [] }

/-- What the id part of DECODE reads from a wire id word with flag bits `ext`, `rtr` and low bits `a` (rules R73, R82). -/
def classifyWireId (mask : Config.IdMask) (ext rtr : Bool) (a : BitVec 30) : Result :=
  .wireId ext rtr (wireIdWord ext rtr a &&& mask.word)

/-- A wire id as four bytes, byte 0 = `id[7:0]` (rule R53, decision D33); used by no operation. -/
def WireMessage.idBytes (w : WireMessage) : List Byte :=
  [w.id.extractLsb' 0 8, w.id.extractLsb' 8 8, w.id.extractLsb' 16 8, w.id.extractLsb' 24 8]

/-- Which context may issue which operation (rule R165). TRY_POP of TXQ by NOTIFY is "allowed by the queue hardware".
A wire id word, like the codec, is stateless and free to both (rule R94; log entry 12). The Transport state is not asked here:
that NOTIFY may issue a codec or queue operation in Stopped too is the model's choice (DESIGN CHOICE, log entry 22). -/
def permitted : Context → Instr → Bool
  | _, .encode _ => true
  | _, .decode _ => true
  | c, .tryPush .rx _ => c == .notify
  | c, .tryPush .tx _ => c == .poll
  | c, .tryPop .rx => c == .poll
  | _, .tryPop .tx => true
  | _, .isEmpty _ => true
  | _, .isFull _ => true
  | c, .clear _ => c == .poll
  | _, .rdPushed _ => true
  | _, .rdDropped _ => true
  | c, .beginRun => c == .poll
  | c, .available => c == .poll
  | c, .getNextFrame => c == .poll
  | c, .send _ => c == .poll
  | c, .reset => c == .poll
  | c, .stop => c == .poll
  | c, .receivedCount => c == .poll
  | c, .sentCount => c == .poll
  | c, .sendErrorCount => c == .poll
  | c, .notifyRx _ => c == .notify
  | c, .notifyTx _ => c == .notify
  | c, .notifyErr _ => c == .notify
  | _, .wireidStdData _ => true
  | _, .wireidStdRemote _ => true
  | _, .wireidExtData _ => true
  | _, .wireidExtRemote _ => true

/-- A context that may issue the operation: POLL where both may. -/
def usualContext (i : Instr) : Context := if permitted .poll i then .poll else .notify

end Sys2Proof.Machine
end

