-- ==== Sys2Proof/Machine/Ops.lean ====
section
/-! DEFINITION. The named operations over slots, queues, the Engine and the observations, and the ONE operation by which a
notification enters and returns (rules R157, R161, R163). -/
namespace Sys2Proof.Machine

/-- What a part of an operation answers: a value to go on with, a fault or a refusal. -/
abbrev Res (α : Type) := Host.Outcome α Fault Refusal

/-- Go on with the value, or stop where the first part stopped. -/
def andThen {α β : Type} (o : Res α) (k : α → Res β) : Res β :=
  match o with
  | .next a => k a
  | .fault e => .fault e
  | .refused r => .refused r

/-- The record of a listed slot. -/
def Memory.read (m : Memory) (i : Nat) : Option FrameRecord :=
  match m with
  | [] => none
  | (j, f) :: rest => if j = i then some f else Memory.read rest i

/-- Slot `i` takes the record `f`; the list stays sorted by index. -/
def Memory.write (m : Memory) (i : Nat) (f : FrameRecord) : Memory :=
  match m with
  | [] => [(i, f)]
  | (j, g) :: rest =>
    if i < j then (i, f) :: (j, g) :: rest
    else if i = j then (i, f) :: rest
    else (j, g) :: Memory.write rest i f

/-- Every index of the list is above `lo`. -/
def Memory.above (lo : Nat) (m : Memory) : Bool := m.all (fun p => decide (lo < p.1))

/-- The canonical form: indices strictly rising. An unlisted slot is one nothing has written, which has no value of its
own to be listed with. -/
def Memory.wf : Memory → Bool
  | [] => true
  | (i, _) :: rest => Memory.above i rest && Memory.wf rest

/-- What slot `i` of queue `sel` holds: the record written, or the free value of an unwritten slot (rule R41, U21). -/
def Queue.slotValue (sel : QueueSel) (q : Queue) (i : Nat) : FrameRecord :=
  (q.slots.read i).getD (Config.unwrittenSlot sel i)

/-- `MemRead(Q, i)` (rules R8, R50 to R52). -/
def memRead (sel : QueueSel) (q : Queue) (i : Nat) : Res FrameRecord :=
  if i < q.cap then .next (q.slotValue sel i) else .fault (.slotOutOfRange i)

/-- `MemWrite(Q, i, f)` (rules R8, R50 to R52). -/
def memWrite (q : Queue) (i : Nat) (f : FrameRecord) : Res Memory :=
  if i < q.cap then .next (q.slots.write i f) else .fault (.slotOutOfRange i)

/-- Indices advance modulo the capacity (rules R24, R52). -/
def Queue.advance (q : Queue) (i : Nat) : Nat := (i + 1) % q.cap

/-- The queued records, oldest first (rule R26). -/
def Queue.contents (sel : QueueSel) (q : Queue) : List FrameRecord :=
  (List.range q.count).map (fun k => q.slotValue sel ((q.rptr + k) % q.cap))

/-- The queue after a successful push that stored into `m` (rule R100). -/
def Queue.afterPush (q : Queue) (m : Memory) : Queue :=
  { q with slots := m, wptr := q.advance q.wptr, count := q.count + 1, pushed := q.pushed + 1, pushes := q.pushes + 1 }

/-- The queue after a successful pop (rule R101). -/
def Queue.afterPop (q : Queue) : Queue :=
  { q with rptr := q.advance q.rptr, count := q.count - 1, pops := q.pops + 1, popped := q.popped + 1 }

/-- The queue after a failed push: only the drop counter moves (rule R100). -/
def Queue.afterDrop (q : Queue) : Queue := { q with dropped := q.dropped + 1 }

/-- TRY_PUSH (rule R100), with the producer's view of rule R61 under `lag`. -/
def Queue.tryPush (lag : Bool) (pick : Nat) (q : Queue) (f : FrameRecord) : Res (Bool × Queue) :=
  if (q.refreshProducer lag pick).fullFlag lag then .next (false, (q.refreshProducer lag pick).afterDrop)
  else andThen (memWrite q q.wptr f) fun m => .next (true, (q.refreshProducer lag pick).afterPush m)

/-- TRY_POP (rule R101), with the consumer's view of rule R61 under `lag`. -/
def Queue.tryPop (sel : QueueSel) (lag : Bool) (pick : Nat) (q : Queue) : Res (Option FrameRecord × Queue) :=
  if (q.refreshConsumer lag pick).emptyFlag lag then .next (none, q.refreshConsumer lag pick)
  else andThen (memRead sel q q.rptr) fun f => .next (some f, (q.refreshConsumer lag pick).afterPop)

/-- CLEAR (rule R104): pointers and occupancy 0; slots, `pushed`, `dropped` unchanged. The totals of rule R61 count from
the last CLEAR; the discarded records are counted in the observation `cleared` (rule R110). -/
def Queue.clear (q : Queue) : Queue :=
  { q with wptr := 0, rptr := 0, count := 0, pushes := 0, pops := 0, pushesSeen := 0, popsSeen := 0
           cleared := q.cleared + q.count }

/-- The queue an operation names. -/
def State.queue (s : State) : QueueSel → Queue
  | .rx => s.rxq
  | .tx => s.txq

/-- The state with that queue replaced. -/
def State.setQueue (s : State) (sel : QueueSel) (q : Queue) : State :=
  match sel with
  | .rx => { s with rxq := q }
  | .tx => { s with txq := q }

/-- An operation returns `r` to its caller, having met error class `c` (rules R8, R150). -/
def State.finish (s : State) (r : Result) (c : Option ErrorClass) : State := { s with result := r, cause := c }

/-- The next free draw of rule R61; none is used without SYNC_LAG (rule R60). -/
def State.drawPick (s : State) : Nat × State :=
  if s.params.syncLag then
    match s.oracle.picks with
    | p :: ps => (p, { s with oracle := { s.oracle with picks := ps } })
    | [] => (Config.lagPick s.oracle.source s.oracle.picked, { s with oracle := { s.oracle with picked := s.oracle.picked + 1 } })
  else (0, s)

/-- TRY_PUSH on a queue of the state (rule R100). -/
def State.tryPush (s : State) (sel : QueueSel) (f : FrameRecord) : Res (Bool × State) :=
  andThen ((s.queue sel).tryPush s.params.syncLag s.drawPick.1 f) fun r =>
    .next (r.1, s.drawPick.2.setQueue sel r.2)

/-- TRY_POP on a queue of the state (rule R101). -/
def State.tryPop (s : State) (sel : QueueSel) : Res (Option FrameRecord × State) :=
  andThen ((s.queue sel).tryPop sel s.params.syncLag s.drawPick.1) fun r =>
    .next (r.1, s.drawPick.2.setQueue sel r.2)

/-- The queue as a flag read with own side `own` finds it: the copy of the side that asks is drawn anew (rule R61). -/
def State.flagQueue (s : State) (own : Side) (sel : QueueSel) : Queue :=
  (s.queue sel).refreshTo (askingSide own s.issuer sel) s.params.syncLag s.drawPick.1

/-- IS_EMPTY on a queue of the state, from the side that asks (rules R60, R61, R102). -/
def State.testEmpty (s : State) (sel : QueueSel) : Bool × State :=
  ((s.flagQueue .consumer sel).emptyTo (askingSide .consumer s.issuer sel) s.params.syncLag,
    s.drawPick.2.setQueue sel (s.flagQueue .consumer sel))

/-- IS_FULL on a queue of the state, from the side that asks (rules R60, R61, R103). -/
def State.testFull (s : State) (sel : QueueSel) : Bool × State :=
  ((s.flagQueue .producer sel).fullTo (askingSide .producer s.issuer sel) s.params.syncLag,
    s.drawPick.2.setQueue sel (s.flagQueue .producer sel))

/-- CLEAR on a queue of the state (rule R104). -/
def State.clearQueue (s : State) (sel : QueueSel) : State := s.setQueue sel (s.queue sel).clear

/-- One answer of the Engine (rule R136): the next one laid down, else a free value. -/
def State.askEngine (s : State) : Bool × State :=
  match s.oracle.answers with
  | b :: bs => (b, { s with oracle := { s.oracle with answers := bs } })
  | [] => (Config.engineAnswer s.oracle.source s.oracle.asked, { s with oracle := { s.oracle with asked := s.oracle.asked + 1 } })

/-- ENCODE as an operation (rule R90): refused above length 8; each message draws its own free tail bytes. -/
def State.encodeOp (s : State) (f : FrameRecord) : Res (WireMessage × State) :=
  if f.lengthValid then
    .next (encodeFrame (Config.tailByte s.oracle.source s.oracle.tails) f,
      { s with oracle := { s.oracle with tails := s.oracle.tails + 1 } })
  else .refused (.misuse .encodeLength)

/-- `Engine.submit(ENCODE(f))` (rules R122, R124, R136): an accepted message is appended to `engine_log`. -/
def State.submit (s : State) (f : FrameRecord) : Res (Bool × State) :=
  andThen (s.encodeOp f) fun e =>
    if e.2.askEngine.1 then
      .next (true, { e.2.askEngine.2 with engineLog := e.2.askEngine.2.engineLog ++ [e.1] })
    else .next (false, e.2.askEngine.2)

/-- A notification enters and runs to completion (rules R125 to R127, R157, R161): RxComplete decodes and pushes into RXQ,
TxComplete does nothing, Error counts. It saves nothing, changes no mode and returns nothing (rule R163); the answer is the
error class it met (rule R150). -/
def State.notify (s : State) : Notification → Res (Option ErrorClass × State)
  | .rxComplete w =>
    andThen (s.tryPush .rx (decodeWire s.params.idMask w)) fun r =>
      .next (if r.1 then none else some .queueFull, r.2)
  | .txComplete _ => .next (none, s)
  | .error _ => .next (some .engineError, { s with busErrors := s.busErrors + 1 })

/-- The notifications due at a preemption point run one after the other (rule R160); the next one comes a point nearer. -/
def State.serve (s : State) : List Arrival → Res State
  | [] => .next { s with arrivals := [] }
  | a :: rest =>
    match a.gap with
    | 0 => andThen (s.notify a.event) fun r => State.serve r.2 rest
    | g + 1 => .next { s with arrivals := { a with gap := g } :: rest }

/-- A preemption point: between two steps of a POLL operation, or while the block waits, the notifications that are due
run (rules R66, R160, R161). None occurs while the Engine is not started (rules R136, R158). -/
def State.preempt (s : State) : Res State :=
  if s.started.isSome then s.serve s.arrivals else .next s

/-- A NOTIFY_RX is due at the next preemption point. -/
def rxDue : List Arrival → Bool
  | [] => false
  | a :: rest =>
    match a.gap, a.event with
    | 0, .rxComplete _ => true
    | 0, .txComplete _ => rxDue rest
    | 0, .error _ => rxDue rest
    | _ + 1, _ => false

/-- `Engine.start(T.cfg)` (rules R121, R158): the Engine gets the configuration and the callback is registered. -/
def State.startEngine (s : State) : State := { s with started := some s.cfg }

/-- `Engine.stop()` (rules R129, R136): from its return no callback fires. -/
def State.stopEngine (s : State) : State := { s with started := none }

/-- The operation has a meaning when its issuing context may issue it (rule R165). -/
def withContext (i : Instr) (s : State) (k : Res State) : Res State :=
  if permitted s.issuer i then k else .refused .wrongContext

/-- A Running-only operation (rules R134, R166). -/
def whenRunning (s : State) (k : Res State) : Res State :=
  match s.runState with
  | .running => k
  | .stopped => .refused (.misuse .notRunning)

/-- A notification occurs in Running only (rules R125 to R127, R158, R166). -/
def whenNotifiable (s : State) (k : Res State) : Res State :=
  match s.runState with
  | .running => k
  | .stopped => .refused .notifyWhileStopped

end Sys2Proof.Machine
end

