-- ==== Sys2Proof/Machine/Codec.lean ====
section
/-! DEFINITION. The Wire Frame Codec: ENCODE, DECODE (file 40_codec.md of the spec), and the four classes of a wire id word
(rules R73, R82). Pure: no register of the block is written (rule R94). -/
namespace Sys2Proof.Machine

/-- ENCODE (rule R90). -/
def execEncode (f : FrameRecord) (s : State) : Res State :=
  withContext (.encode f) s (andThen (s.encodeOp f) fun e => .next (e.2.finish (.wire e.1) none))

/-- DECODE (rule R91). -/
def execDecode (w : WireMessage) (s : State) : Res State :=
  withContext (.decode w) s (.next (s.finish (.frame (decodeWire s.params.idMask w)) none))

/-- WIREID_STD_DATA: a wire id word of class 00 (rule R73). -/
def execWireidStdData (a : BitVec 30) (s : State) : Res State :=
  withContext (.wireidStdData a) s (.next (s.finish (classifyWireId s.params.idMask false false a) none))

/-- WIREID_STD_REMOTE: a wire id word of class 01 (rule R73). -/
def execWireidStdRemote (a : BitVec 30) (s : State) : Res State :=
  withContext (.wireidStdRemote a) s (.next (s.finish (classifyWireId s.params.idMask false true a) none))

/-- WIREID_EXT_DATA: a wire id word of class 10 (rule R73). -/
def execWireidExtData (a : BitVec 30) (s : State) : Res State :=
  withContext (.wireidExtData a) s (.next (s.finish (classifyWireId s.params.idMask true false a) none))

/-- WIREID_EXT_REMOTE: a wire id word of class 11 (rule R73). -/
def execWireidExtRemote (a : BitVec 30) (s : State) : Res State :=
  withContext (.wireidExtRemote a) s (.next (s.finish (classifyWireId s.params.idMask true true a) none))

end Sys2Proof.Machine
end

