-- ==== Sys2Proof/Machine/FrameQueue.lean ====
section
/-! DEFINITION. The Frame Queue operations (file 41_queue.md of the spec), each atomic (rule R56). -/
namespace Sys2Proof.Machine

/-- TRY_PUSH (rule R100): a full queue is a result and a counter, class QueueFull (rules R150, R151). -/
def execTryPush (q : QueueSel) (f : FrameRecord) (s : State) : Res State :=
  withContext (.tryPush q f) s
    (andThen (s.tryPush q f) fun r => .next (r.2.finish (.bool r.1) (if r.1 then none else some .queueFull)))

/-- TRY_POP (rule R101). -/
def execTryPop (q : QueueSel) (s : State) : Res State :=
  withContext (.tryPop q) s (andThen (s.tryPop q) fun r => .next (r.2.finish (.optFrame r.1) none))

/-- IS_EMPTY (rule R102). -/
def execIsEmpty (q : QueueSel) (s : State) : Res State :=
  withContext (.isEmpty q) s (.next ((s.testEmpty q).2.finish (.bool (s.testEmpty q).1) none))

/-- IS_FULL (rule R103). -/
def execIsFull (q : QueueSel) (s : State) : Res State :=
  withContext (.isFull q) s (.next ((s.testFull q).2.finish (.bool (s.testFull q).1) none))

/-- A NOTIFY_RX overlaps a CLEAR of this queue: one is due while the Engine is started (rules R104, R191). -/
def clearOverlapped (q : QueueSel) (s : State) : Bool := q == .rx && s.started.isSome && rxDue s.arrivals

/-- CLEAR (rule R104): not covered by atomicity (rule R68). The overlap of rule R191 has no meaning; a notification that
does not touch the queue may run. -/
def execClear (q : QueueSel) (s : State) : Res State :=
  withContext (.clear q) s
    (if clearOverlapped q s then .refused .clearOverlap
     else andThen (s.clearQueue q).preempt fun t => .next (t.finish .none none))

/-- RD_PUSHED (rule R109). -/
def execRdPushed (q : QueueSel) (s : State) : Res State :=
  withContext (.rdPushed q) s (.next (s.finish (.nat (s.queue q).pushed) none))

/-- RD_DROPPED (rule R109). -/
def execRdDropped (q : QueueSel) (s : State) : Res State :=
  withContext (.rdDropped q) s (.next (s.finish (.nat (s.queue q).dropped) none))

end Sys2Proof.Machine
end

