-- ==== Sys2Proof/Machine/Notify.lean ====
section
/-! DEFINITION. The operations of the notification context (rules R125 to R127): the one callback, by event. -/
namespace Sys2Proof.Machine

/-- A notification presented as an operation: it runs to completion and returns nothing (rule R163). -/
def State.notifyOp (s : State) (n : Notification) : Res State :=
  andThen (s.notify n) fun r => .next (r.2.finish .none r.1)

/-- NOTIFY_RX (rule R125). -/
def execNotifyRx (w : WireMessage) (s : State) : Res State :=
  withContext (.notifyRx w) s (whenNotifiable s (s.notifyOp (.rxComplete w)))

/-- NOTIFY_TX (rule R126): no action. -/
def execNotifyTx (w : WireMessage) (s : State) : Res State :=
  withContext (.notifyTx w) s (whenNotifiable s (s.notifyOp (.txComplete w)))

/-- NOTIFY_ERR (rule R127). -/
def execNotifyErr (w : WireMessage) (s : State) : Res State :=
  withContext (.notifyErr w) s (whenNotifiable s (s.notifyOp (.error w)))

end Sys2Proof.Machine
end

