-- ==== Sys2Proof/Machine/Transport.lean ====
section
/-! DEFINITION. The Transport's operations of the polling context (file 42_transport.md of the spec). They are not atomic:
`preempt` stands between any two of their steps (rule R66). -/
namespace Sys2Proof.Machine

/-- The four Transport counters at 0 (rules R31, R32, R121). -/
def State.zeroCounters (s : State) : State :=
  { s with framesSent := 0, framesReceived := 0, sendErrors := 0, busErrors := 0 }

/-- BEGIN's steps from Stopped (rule R121). A notification may already run once the Engine is started (corner case (b)). -/
def State.beginSteps (s : State) : Res State :=
  andThen ({ ((s.clearQueue .rx).clearQueue .tx).zeroCounters with engine := .present }.startEngine).preempt fun t =>
    .next { t with runState := .running }

/-- BEGIN (rule R121); in Running it is refused (rules R154, R194). -/
def execBeginRun (s : State) : Res State :=
  withContext .beginRun s
    (match s.runState with
     | .running => .refused (.misuse .beginWhileRunning)
     | .stopped => andThen s.beginSteps fun t => .next (t.finish .none none))

/-- `T.framesSent <- T.framesSent + 1` (rules R31, R122, R124). -/
def State.countSent (s : State) : State := { s with framesSent := s.framesSent + 1 }

/-- `T.sendErrors <- T.sendErrors + 1` (rules R31, R122, R124). -/
def State.countSendError (s : State) : State := { s with sendErrors := s.sendErrors + 1 }

/-- `T.framesReceived <- T.framesReceived + 1` (rules R31, R123). -/
def State.countReceived (s : State) : State := { s with framesReceived := s.framesReceived + 1 }

/-- The end of one turn of the drain (rule R122): the submitted frame is counted and the loop goes on with `again`, or the
rejected frame is lost, counted, and the loop ends. -/
def State.drainTurn (again : State → Res (Bool × State)) (s : State) (f : FrameRecord) : Res (Bool × State) :=
  andThen (s.submit f) fun r =>
    andThen r.2.preempt fun t =>
      if r.1 then andThen t.countSent.preempt again else .next (true, t.countSendError)

/-- The drain loop of AVAILABLE (rule R122), for at most `fuel` turns; the answer says whether a submission was rejected.
`none` cannot come from TRY_POP here (rule R122): the loop then ends. -/
def State.drain : Nat → State → Res (Bool × State)
  | 0, s => .next (false, s)
  | fuel + 1, s =>
    if (s.testEmpty .tx).1 then .next (false, (s.testEmpty .tx).2)
    else
      andThen (s.testEmpty .tx).2.preempt fun a =>
        if a.askEngine.1 then
          andThen a.askEngine.2.preempt fun b =>
            andThen (b.tryPop .tx) fun r =>
              andThen r.2.preempt fun c =>
                match r.1 with
                | none => .next (false, c)
                | some f => c.drainTurn (State.drain fuel) f
        else .next (false, a.askEngine.2)

/-- The turns the drain may take: one more than the queued frames, the last one to find the queue empty (rule R122,
corner case (a)). -/
def State.drainFuel (s : State) : Nat := s.txq.count + 1

/-- AVAILABLE (rule R122). -/
def execAvailable (s : State) : Res State :=
  withContext .available s
    (whenRunning s
      (andThen (s.drain s.drainFuel) fun d =>
        andThen d.2.preempt fun t =>
          .next ((t.testEmpty .rx).2.finish (.bool (!(t.testEmpty .rx).1)) (if d.1 then some .engineRejected else none))))

/-- GET_NEXT_FRAME (rule R123): on an empty queue the zero frame, nothing counted (class GetNextWhenEmpty, rule R150). -/
def execGetNextFrame (s : State) : Res State :=
  withContext .getNextFrame s
    (whenRunning s
      (andThen (s.tryPop .rx) fun r =>
        andThen r.2.preempt fun t =>
          match r.1 with
          | some f => .next (t.countReceived.finish (.frame f) none)
          | none => .next (t.finish (.frame zeroFrame) (some (.misuse .getNextWhenEmpty)))))

/-- SEND's direct path (rule R124): a rejected frame is not retried and not queued. -/
def State.sendDirect (s : State) (f : FrameRecord) : Res State :=
  andThen (s.submit f) fun r =>
    andThen r.2.preempt fun t =>
      if r.1 then .next (t.countSent.finish (.bool true) none)
      else .next (t.countSendError.finish (.bool false) (some .engineRejected))

/-- SEND's queued path (rule R124): an enqueued frame counts as sent only when the drain submits it. -/
def State.sendQueued (s : State) (f : FrameRecord) : Res State :=
  andThen (s.tryPush .tx f) fun r =>
    andThen r.2.preempt fun t =>
      if r.1 then .next (t.finish (.bool true) none)
      else .next (t.countSendError.finish (.bool false) (some .queueFull))

/-- SEND (rule R124), its conditions in the order of rule R156. -/
def execSend (f : FrameRecord) (s : State) : Res State :=
  withContext (.send f) s
    (whenRunning s
      (if f.lengthValid then
        andThen s.preempt fun a =>
          andThen a.askEngine.2.preempt fun b => if a.askEngine.1 then b.sendDirect f else b.sendQueued f
       else .refused (.misuse .encodeLength)))

/-- RESET (rule R128): stop, clear both queues, discard and recreate the Engine, then BEGIN's steps from Stopped. -/
def execReset (s : State) : Res State :=
  withContext .reset s
    (whenRunning s
      (andThen
        (State.beginSteps
          { (({ s.stopEngine with runState := .stopped }.clearQueue .rx).clearQueue .tx) with engine := .present })
        fun t => .next (t.finish .none none)))

/-- STOP (rule R129): queues and counters keep their values. -/
def execStop (s : State) : Res State :=
  withContext .stop s
    (whenRunning s (.next ({ s.stopEngine with engine := .absent, runState := .stopped }.finish .none none)))

/-- RECEIVED_COUNT (rule R130). -/
def execReceivedCount (s : State) : Res State :=
  withContext .receivedCount s (.next (s.finish (.nat s.framesReceived) none))

/-- SENT_COUNT (rule R131). -/
def execSentCount (s : State) : Res State :=
  withContext .sentCount s (.next (s.finish (.nat s.framesSent) none))

/-- SEND_ERROR_COUNT (rule R132). -/
def execSendErrorCount (s : State) : Res State :=
  withContext .sendErrorCount s (.next (s.finish (.nat s.sendErrors) none))

end Sys2Proof.Machine
end

