-- ==== Sys2Proof/Machine/Dispatch.lean ====
section
/-! DEFINITION. One arm per row of the opcode table. -/
namespace Sys2Proof.Machine

/-- The effect of one operation. -/
def exec (i : Instr) (s : State) : Host.Outcome State Fault Refusal :=
  match i with
  | .encode f => Sys2Proof.Machine.execEncode f s
  | .decode w => Sys2Proof.Machine.execDecode w s
  | .tryPush q f => Sys2Proof.Machine.execTryPush q f s
  | .tryPop q => Sys2Proof.Machine.execTryPop q s
  | .isEmpty q => Sys2Proof.Machine.execIsEmpty q s
  | .isFull q => Sys2Proof.Machine.execIsFull q s
  | .clear q => Sys2Proof.Machine.execClear q s
  | .rdPushed q => Sys2Proof.Machine.execRdPushed q s
  | .rdDropped q => Sys2Proof.Machine.execRdDropped q s
  | .beginRun => Sys2Proof.Machine.execBeginRun s
  | .available => Sys2Proof.Machine.execAvailable s
  | .getNextFrame => Sys2Proof.Machine.execGetNextFrame s
  | .send f => Sys2Proof.Machine.execSend f s
  | .reset => Sys2Proof.Machine.execReset s
  | .stop => Sys2Proof.Machine.execStop s
  | .receivedCount => Sys2Proof.Machine.execReceivedCount s
  | .sentCount => Sys2Proof.Machine.execSentCount s
  | .sendErrorCount => Sys2Proof.Machine.execSendErrorCount s
  | .notifyRx w => Sys2Proof.Machine.execNotifyRx w s
  | .notifyTx w => Sys2Proof.Machine.execNotifyTx w s
  | .notifyErr w => Sys2Proof.Machine.execNotifyErr w s
  | .wireidStdData a => Sys2Proof.Machine.execWireidStdData a s
  | .wireidStdRemote a => Sys2Proof.Machine.execWireidStdRemote a s
  | .wireidExtData a => Sys2Proof.Machine.execWireidExtData a s
  | .wireidExtRemote a => Sys2Proof.Machine.execWireidExtRemote a s

end Sys2Proof.Machine
end

