-- ==== Sys2Proof/Machine/Step.lean ====
section
/-! DEFINITION. One step: the next presented operation, or one preemption point while none is presented (rules R35, R181). -/
namespace Sys2Proof.Machine

/-- The state in which the operation `r` is performed: it is no longer pending and its context is the issuer. -/
def State.take (s : State) (r : Request) (rest : List Request) : State := { s with requests := rest, issuer := r.context }

/-- One step of the block. A reserved word is refused (rule R77). -/
def step (s : State) : Host.Outcome State Fault Refusal :=
  match s.requests with
  | [] => s.preempt
  | r :: rest =>
    match decode r.word with
    | .ok i => exec i (s.take r rest)
    | .error e => .refused (.reserved e)

/-- The request that presents the word `p`, by a context that may issue its operation. -/
def requestOf (p : PortWord) : Request :=
  match decode p with
  | .ok i => { context := usualContext i, word := p }
  | .error _ => { context := .poll, word := p }

/-- `s` with the operation of the opcode-table word `w` presented ahead of every pending one. A word that is no port word
at all is presented as the reserved command `op = 31`, `q = 1`. -/
def State.withFetchWord (s : State) (nbits w : Nat) : State :=
  match portWordOfTable nbits w with
  | some p => { s with requests := requestOf p :: s.requests }
  | none => { s with requests := requestOf (.command 63 0) :: s.requests }

end Sys2Proof.Machine
end

