-- ==== Sys2Proof/Machine/Instances.lean ====
section
/-! DEFINITION. `N_INST` Transport instances (rules R40, R159, R169): each its own machine, nothing shared. -/
namespace Sys2Proof.Machine

/-- The instances, by number. -/
abbrev Instances := List State

/-- What the construction of one instance is given (rules R5, R33, R41). -/
structure InstanceSetup where
  rxCap : Nat
  txCap : Nat
  cfg : Config.EngineConfig
  params : Config.Params
  deriving DecidableEq, Repr

/-- Instance `k` after power-on reset. Its free choices (Engine answers, draws of rule R61, tail bytes) come from source
`k`, so that no two instances have an Engine, or a draw, in common. DESIGN CHOICE (log entry 15). -/
def InstanceSetup.powerOn (k : Nat) (u : InstanceSetup) : State :=
  { State.powerOn u.rxCap u.txCap u.cfg u.params with oracle := { Oracle.start with source := k } }

/-- The instances after power-on reset, one per setup. The spec gives neither their number nor what they have in common
(rule R40): capacities, Engine configuration and parameters are each instance's own argument, and the numbering of the
sources is the model's. DESIGN CHOICE (log entry 15). -/
def powerOnInstances (setups : List InstanceSetup) : Instances := setups.mapIdx InstanceSetup.powerOn

/-- Instance `k` makes a step, that is, an operation or notification whose handle names it is performed (rule R159).
A number no instance has reaches none. -/
def stepInstance (k : Nat) (sys : Instances) : Res Instances :=
  match sys[k]? with
  | some s => andThen (step s) fun t => .next (sys.set k t)
  | none => .next sys

end Sys2Proof.Machine
end

