-- ==== Sys2Proof/Machine/Micro.lean ====
section
/-! DEFINITION. The micro-step form of TRY_PUSH and TRY_POP (rule R188, SYNC_LAG = false): one producer and one consumer whose
steps interleave freely on one queue. The machine uses the atomic form; this form is to be shown a refinement of it. -/
namespace Sys2Proof.Machine

/-- Where the producer stands in its TRY_PUSH: idle, before W1, before W2, before W3. -/
inductive PushPos where
  | idle
  | beforeW1 (f : FrameRecord)
  | beforeW2 (f : FrameRecord)
  | beforeW3 (f : FrameRecord)
  deriving DecidableEq, Repr

/-- Where the consumer stands in its TRY_POP: idle, before P1, before P2, before P3 with the record it has read. -/
inductive PopPos where
  | idle
  | beforeP1
  | beforeP2
  | beforeP3 (f : FrameRecord)
  deriving DecidableEq, Repr

/-- A queue with one producer and one consumer (rules R58, R188). -/
structure MicroQueue where
  queue : Queue
  push : PushPos
  pop : PopPos
  deriving DecidableEq, Repr

/-- What a micro-step returns to an agent when it completes an operation. -/
inductive MicroEvent where
  | silent
  | pushed (f : FrameRecord) (ok : Bool)
  | popped (r : Option FrameRecord)
  deriving DecidableEq, Repr

/-- A micro-step of one of the two agents; `startPush`, `startPop` issue an operation where the agent is idle. -/
inductive MicroMove where
  | startPush (f : FrameRecord)
  | startPop
  | producer
  | consumer
  deriving DecidableEq, Repr

/-- The producer's next micro-step: W1, W2 or W3 (rule R188); an idle producer does nothing. -/
def MicroQueue.producerStep (m : MicroQueue) : Res (MicroEvent × MicroQueue) :=
  match m.push with
  | .idle => .next (.silent, m)
  | .beforeW1 f =>
    if m.queue.fullFlag false then .next (.pushed f false, { m with queue := m.queue.afterDrop, push := .idle })
    else .next (.silent, { m with push := .beforeW2 f })
  | .beforeW2 f =>
    andThen (memWrite m.queue m.queue.wptr f) fun slots =>
      .next (.silent, { m with queue := { m.queue with slots := slots }, push := .beforeW3 f })
  | .beforeW3 f => .next (.pushed f true, { m with queue := m.queue.afterPush m.queue.slots, push := .idle })

/-- The consumer's next micro-step: P1, P2 or P3 (rule R188); an idle consumer does nothing. -/
def MicroQueue.consumerStep (sel : QueueSel) (m : MicroQueue) : Res (MicroEvent × MicroQueue) :=
  match m.pop with
  | .idle => .next (.silent, m)
  | .beforeP1 =>
    if m.queue.emptyFlag false then .next (.popped none, { m with pop := .idle })
    else .next (.silent, { m with pop := .beforeP2 })
  | .beforeP2 =>
    andThen (memRead sel m.queue m.queue.rptr) fun f => .next (.silent, { m with pop := .beforeP3 f })
  | .beforeP3 f => .next (.popped (some f), { m with queue := m.queue.afterPop, pop := .idle })

/-- One move of the free interleaving (rule R188). -/
def MicroQueue.move (sel : QueueSel) (m : MicroQueue) : MicroMove → Res (MicroEvent × MicroQueue)
  | .startPush f => .next (.silent, { m with push := match m.push with
      | .idle => .beforeW1 f
      | p => p })
  | .startPop => .next (.silent, { m with pop := match m.pop with
      | .idle => .beforeP1
      | p => p })
  | .producer => m.producerStep
  | .consumer => m.consumerStep sel

/-- A whole interleaving, with the results it returned in order. -/
def MicroQueue.run (sel : QueueSel) (m : MicroQueue) : List MicroMove → Res (List MicroEvent × MicroQueue)
  | [] => .next ([], m)
  | a :: rest =>
    andThen (m.move sel a) fun r =>
      andThen (r.2.run sel rest) fun t => .next (if r.1 = .silent then t.1 else r.1 :: t.1, t.2)

/-- The atomic operation an event is the result of, on a queue (rules R100, R101). -/
def Queue.atomicEvent (sel : QueueSel) (q : Queue) : MicroEvent → Res (MicroEvent × Queue)
  | .silent => .next (.silent, q)
  | .pushed f _ => andThen (q.tryPush false 0 f) fun r => .next (.pushed f r.1, r.2)
  | .popped _ => andThen (q.tryPop sel false 0) fun r => .next (.popped r.1, r.2)

/-- The atomic operations of a list of events, in order. -/
def Queue.atomicRun (sel : QueueSel) (q : Queue) : List MicroEvent → Res (List MicroEvent × Queue)
  | [] => .next ([], q)
  | e :: rest =>
    andThen (q.atomicEvent sel e) fun r =>
      andThen (r.2.atomicRun sel rest) fun t => .next (r.1 :: t.1, t.2)

end Sys2Proof.Machine
end

