-- ==== Sys2Proof/Safety.lean ====
section
/-! DEFINITION. What claims speak of: the codes of the error classes (rule R150) and the invariants of a queue and of the
machine. -/
namespace Sys2Proof.Machine

/-- The cause code of an error class (rule R150). -/
def ErrorClass.code : ErrorClass → Nat
  | .queueFull => 1
  | .engineRejected => 2
  | .engineError => 3
  | .misuse _ => 4

/-- The error class of a refusal that is a MisuseError (rule R154). -/
def Refusal.errorClass : Refusal → Option ErrorClass
  | .misuse k => some (.misuse k)
  | _ => none

/-- What holds of a queue after reset and after every operation: the ring of rule R26 and its ranges (rules R24, R25), the
storage's form, the bounds of rule R61 and the counter law (rule R110). -/
structure Queue.Inv (lag : Bool) (q : Queue) : Prop where
  capPos : 1 ≤ q.cap
  wptrLt : q.wptr < q.cap
  rptrLt : q.rptr < q.cap
  countLe : q.count ≤ q.cap
  ring : q.wptr = (q.rptr + q.count) % q.cap
  slotsWf : q.slots.wf = true
  slotsInRange : ∀ p ∈ q.slots, p.1 < q.cap
  slotsRecords : ∀ p ∈ q.slots, p.2.wf = true
  queuedWritten : ∀ k, k < q.count → (q.slots.read ((q.rptr + k) % q.cap)).isSome = true
  occupancy : q.pushes = q.pops + q.count
  pushesSeenLe : q.pushesSeen ≤ q.pushes
  popsSeenLe : q.popsSeen ≤ q.pops
  consumerBehind : lag = true → q.pops ≤ q.pushesSeen
  producerBehind : lag = true → q.pushes ≤ q.popsSeen + q.cap
  counterLaw : q.pushed = q.count + q.popped + q.cleared

/-- What holds of the machine between operations: both queues' invariants, the Engine present and started exactly in
Running (rules R34, R158), and every accepted message carries a dlc of at most 8 (rule R90). -/
structure State.Inv (s : State) : Prop where
  rx : s.rxq.Inv s.params.syncLag
  tx : s.txq.Inv s.params.syncLag
  enginePresent : s.engine = .present ↔ s.runState = .running
  startedRunning : s.started.isSome = true ↔ s.runState = .running
  logDlc : ∀ w ∈ s.engineLog, w.dlc.toNat ≤ 8

/-- No notification preempts an operation that does not start the Engine: it is not started, or none is coming. -/
def State.Undisturbed (s : State) : Prop := s.started = none ∨ s.arrivals = []

/-- How many of the notifications that are due at the next preemption point are NOTIFY_ERR (rules R127, R160). -/
def errorsDue : List Arrival → Nat
  | [] => 0
  | a :: rest =>
    match a.gap, a.event with
    | 0, .error _ => errorsDue rest + 1
    | 0, .rxComplete _ => errorsDue rest
    | 0, .txComplete _ => errorsDue rest
    | _ + 1, _ => 0

/-- The notifications still to come after the next preemption point, the first of them a point nearer (log entry 3). -/
def laterArrivals : List Arrival → List Arrival
  | [] => []
  | a :: rest =>
    match a.gap with
    | 0 => laterArrivals rest
    | g + 1 => { a with gap := g } :: rest

/-- `w` is what ENCODE makes of `f` (rule R90), its free tail bytes left open. -/
def EncodedAs (f : FrameRecord) (w : WireMessage) : Prop :=
  w.id = f.id ||| (if f.isRemoteRequest then 0x40000000#32 else 0#32) |||
      (if f.isExtended then 0x80000000#32 else 0#32) ∧
    w.dlc = f.length ∧ w.payload = f.data

/-- The frames that wait in TXQ, oldest first (rule R26). -/
def State.waiting (s : State) : List FrameRecord := s.txq.contents .tx

/-- Successive TRY_PUSH operations on one queue (SYNC_LAG = false), with their results. -/
def Queue.pushAll (q : Queue) : List FrameRecord → Res (List Bool × Queue)
  | [] => .next ([], q)
  | f :: rest =>
    andThen (q.tryPush false 0 f) fun r => andThen (r.2.pushAll rest) fun t => .next (r.1 :: t.1, t.2)

/-- `n` successive TRY_POP operations on one queue (SYNC_LAG = false), with their results. -/
def Queue.popTimes (sel : QueueSel) (q : Queue) : Nat → Res (List (Option FrameRecord) × Queue)
  | 0 => .next ([], q)
  | n + 1 =>
    andThen (q.tryPop sel false 0) fun r => andThen (r.2.popTimes sel n) fun t => .next (r.1 :: t.1, t.2)

/-- Notifications that all run at one preemption point, one after the other (rule R160). -/
def State.serveAll (s : State) (ns : List Notification) : Res State :=
  s.serve (ns.map fun n => { gap := 0, event := n })

/-- The operation has a meaning in this Transport state and with these operands (rules R90, R104, R121, R122 (d), R124,
R134, R158, R191). -/
def State.InPlace (s : State) : Instr → Prop
  | .encode f => f.length.toNat ≤ 8
  | .decode _ => True
  | .tryPush _ _ => True
  | .tryPop _ => True
  | .isEmpty _ => True
  | .isFull _ => True
  | .clear q => q = .tx ∨ s.started = none ∨ rxDue s.arrivals = false
  | .rdPushed _ => True
  | .rdDropped _ => True
  | .beginRun => s.runState = .stopped
  | .available => s.runState = .running ∧ ∀ f ∈ s.waiting, f.length.toNat ≤ 8
  | .getNextFrame => s.runState = .running
  | .send f => s.runState = .running ∧ f.length.toNat ≤ 8
  | .reset => s.runState = .running
  | .stop => s.runState = .running
  | .receivedCount => True
  | .sentCount => True
  | .sendErrorCount => True
  | .notifyRx _ => s.runState = .running
  | .notifyTx _ => s.runState = .running
  | .notifyErr _ => s.runState = .running
  | .wireidStdData _ => True
  | .wireidStdRemote _ => True
  | .wireidExtData _ => True
  | .wireidExtRemote _ => True

/-- Two queues that no operation can tell apart by its result: same pointers, occupancy and counters, same queued records
(rule R26). -/
def Queue.SameRing (sel : QueueSel) (p q : Queue) : Prop :=
  p.cap = q.cap ∧ p.wptr = q.wptr ∧ p.rptr = q.rptr ∧ p.count = q.count ∧ p.pushed = q.pushed ∧
    p.dropped = q.dropped ∧ p.contents sel = q.contents sel

end Sys2Proof.Machine
end

