-- ==== Sys2Proof/Certificates/Slice0/Obligations.lean ====
section
/-! DEFINITION. The statements about the machine, from the spec's numbered rules. Each name says what is stated and each
docstring names the rule. Every next state is written out, so that an equation is the frame as well: what it does not
name is unchanged. -/
open Sys2Proof Sys2Proof.Machine

/-! ## Reset, invariants, stepping -/

/-- Rules R5, R41, R180: what power-on reset leaves, for any capacities and parameters, and the default parameters of the
machine at reset. -/
def Obligations.PowerOnLeavesSpecValues : Prop :=
  (∀ (rxCap txCap : Nat) (cfg : Config.EngineConfig) (params : Config.Params),
    let s := State.powerOn rxCap txCap cfg params
    (s.rxq.cap = rxCap ∧ s.txq.cap = txCap ∧ s.cfg = cfg ∧ s.params = params) ∧
      (∀ q, (s.queue q).wptr = 0 ∧ (s.queue q).rptr = 0 ∧ (s.queue q).count = 0 ∧ (s.queue q).pushed = 0 ∧
        (s.queue q).dropped = 0 ∧ (s.queue q).emptyFlag false = true) ∧
      (1 ≤ rxCap → s.rxq.fullFlag false = false) ∧ (1 ≤ txCap → s.txq.fullFlag false = false) ∧
      s.runState = .stopped ∧ s.engine = .absent ∧ s.started = none ∧
      s.framesSent = 0 ∧ s.framesReceived = 0 ∧ s.sendErrors = 0 ∧ s.busErrors = 0 ∧ s.engineLog = []) ∧
  (State.reset.rxq.cap = 64 ∧ State.reset.txq.cap = 16 ∧ State.reset.params.syncLag = false ∧
    State.reset.params.idMask.word = 0x3FFFFFFF#32)

/-- The invariant holds after power-on reset with any legal capacities (rules R26, R34, R41). -/
def Obligations.PowerOnMeetsInvariant : Prop :=
  (∀ (rxCap txCap : Nat) (cfg : Config.EngineConfig) (params : Config.Params), 1 ≤ rxCap → 1 ≤ txCap →
    (State.powerOn rxCap txCap cfg params).Inv) ∧ State.reset.Inv

/-- Every step keeps the invariant (rules R26, R34, R61, R110). -/
def Obligations.StepKeepsInvariant : Prop :=
  ∀ s t : State, s.Inv → step s = .next t → t.Inv

/-- No step that starts in a state of the invariant faults (rule R52). -/
def Obligations.NoAccessLeavesTheSlots : Prop :=
  ∀ (s : State) (e : Fault), s.Inv → step s ≠ .fault e

/-- A step runs the decoded operation: it takes the request off the ports and is `exec` of the instruction, issued by the
request's context. A reserved word is refused (rule R77). The list of requests is the model's choice (log entry 1). -/
def Obligations.StepRunsTheDecodedOperation : Prop :=
  ∀ (s : State) (r : Request) (rest : List Request), s.requests = r :: rest →
    (∀ i, decode r.word = .ok i → step s = exec i { s with requests := rest, issuer := r.context }) ∧
      (∀ e, decode r.word = .error e → step s = .refused (.reserved e))

/-- Rules R66, R158, R160, R181: with no operation presented the block waits, and only a notification that is due changes
anything. Those due run one after the other in list order, each as the operation NOTIFY_RX, NOTIFY_TX or NOTIFY_ERR does; the
first later one comes a point nearer. The list of arrivals and its gaps are the model's form (log entry 3), the idle step as a
preemption point is too (log entry 1). -/
def Obligations.IdleBlockWaits : Prop :=
  ∀ s : State, s.requests = [] →
    (s.Undisturbed → step s = .next s) ∧
    (∀ (n : Notification) (rest : List Arrival), s.started.isSome = true → s.arrivals = { gap := 0, event := n } :: rest →
      step s = andThen (s.notify n) fun r => step { r.2 with arrivals := rest }) ∧
    (∀ (g : Nat) (n : Notification) (rest : List Arrival), s.started.isSome = true →
      s.arrivals = { gap := g + 1, event := n } :: rest →
      step s = .next { s with arrivals := { gap := g, event := n } :: rest }) ∧
    (s.started.isSome = true → rxDue s.arrivals = false →
      step s = .next { s with busErrors := s.busErrors + errorsDue s.arrivals, arrivals := laterArrivals s.arrivals }) ∧
    (s.runState = .running → ∀ w : WireMessage,
      (exec (.notifyRx w) { s with issuer := .notify } =
        andThen (s.notify (.rxComplete w)) fun r => .next { r.2 with issuer := .notify, result := .none, cause := r.1 }) ∧
      (exec (.notifyTx w) { s with issuer := .notify } =
        andThen (s.notify (.txComplete w)) fun r => .next { r.2 with issuer := .notify, result := .none, cause := r.1 }) ∧
      (exec (.notifyErr w) { s with issuer := .notify } =
        andThen (s.notify (.error w)) fun r => .next { r.2 with issuer := .notify, result := .none, cause := r.1 }))

/-! ## Encoding -/

/-- Decode and encode agree on every well-formed instruction, every operand at every value. -/
def Obligations.DecodeEncodeIsIdentity : Prop :=
  ∀ i : Instr, i.wf = true → decode (encode i) = .ok i

/-- Decoding gives only well-formed instructions (rule R20). -/
def Obligations.DecodedInstructionsAreWellFormed : Prop :=
  ∀ (p : PortWord) (i : Instr), decode p = .ok i → i.wf = true

/-- Every operation has exactly one command word and every wire id word exactly one reading (rules R73, R76). -/
def Obligations.OneCommandWordPerOperation : Prop :=
  (∀ (cmd : BitVec 6) (v : BitVec 102) (i : Instr), decode (.command cmd v) = .ok i →
    ∃ u, encode i = .command cmd u) ∧
  (∀ (id : Word) (i : Instr), decode (.wireId id) = .ok i → encode i = .wireId id)

/-- Rule R77: codes 21 to 31 and `q = 1` with an operation that takes no queue are no operation and are refused; every
other command word is an operation. -/
def Obligations.ReservedCommandWordsAreRefused : Prop :=
  ∀ (cmd : BitVec 6) (v : BitVec 102) (c : Context) (rest : List Request) (s : State),
    s.requests = { context := c, word := .command cmd v } :: rest →
    (21 ≤ cmd.toNat / 2 → step s = .refused (.reserved (.reservedCode (cmd.toNat / 2)))) ∧
      (cmd.toNat / 2 ≤ 20 → cmd.toNat % 2 = 1 → (cmd.toNat / 2 < 2 ∨ 8 < cmd.toNat / 2) →
        step s = .refused (.reserved (.strayQueueBit (cmd.toNat / 2)))) ∧
      (cmd.toNat / 2 ≤ 20 → (cmd.toNat % 2 = 0 ∨ (2 ≤ cmd.toNat / 2 ∧ cmd.toNat / 2 ≤ 8)) →
        ∃ i, decode (.command cmd v) = .ok i)

/-- Command and wire id words written out from rules R70, R76, R79, R80 and 95_test_vectors.md decode to what they stand for. -/
def Obligations.WrittenOutWordsDecode : Prop :=
  decode (.command 0b000000#6 0x0000000000002EEA8800000123#102) =
      .ok (.encode { id := 0x123, length := 2, isRemoteRequest := false, isExtended := false, data := [0xAA, 0xBB] }) ∧
    decode (.command 0b000010#6 0x00000000000000000C01ABCDE#102) =
      .ok (.decode { id := 0xC01ABCDE, dlc := 0, data := #v[0, 0, 0, 0, 0, 0, 0, 0] }) ∧
    decode (.command 0b000111#6 0) = .ok (.tryPop .tx) ∧
    decode (.command 0b010010#6 0) = .ok .beginRun ∧
    decode (.command 0b101000#6 0) =
      .ok (.notifyErr { id := 0, dlc := 0, data := #v[0, 0, 0, 0, 0, 0, 0, 0] }) ∧
    decode (.wireId 0xC01ABCDE#32) = .ok (.wireidExtRemote 0x001ABCDE#30)

/-! ## Codec -/

/-- Rule R90: ENCODE of a length-valid record, in any state and for either context; no register of the block is written.
A length above 8 is refused. The counter `tails` is the model's own (free tail bytes, log entry 7). -/
def Obligations.EncodeGivesTheWireMessage : Prop :=
  ∀ (f : FrameRecord) (s : State), f.wf = true →
    (f.length.toNat ≤ 8 → ∃ w, EncodedAs f w ∧
      exec (.encode f) s = .next { s with result := .wire w, cause := none,
                                          oracle := { s.oracle with tails := s.oracle.tails + 1 } }) ∧
    (8 < f.length.toNat → exec (.encode f) s = .refused (.misuse .encodeLength))

/-- Rule R91: DECODE is total; `dlc` is clamped to 8 and the flag bits are masked off the id. -/
def Obligations.DecodeGivesTheFrameRecord : Prop :=
  ∀ (w : WireMessage) (s : State), ∃ f : FrameRecord,
    exec (.decode w) s = .next { s with result := .frame f, cause := none } ∧
      f.length.toNat = min w.dlc.toNat 8 ∧ f.isRemoteRequest = w.id.getLsbD 30 ∧ f.isExtended = w.id.getLsbD 31 ∧
      f.id = w.id &&& s.params.idMask.word ∧ f.data = w.data.toList.take (min w.dlc.toNat 8) ∧
      (s.params.idMask = .keepBit29 → f.id = w.id &&& 0x3FFFFFFF#32)

/-- Rule R92: decode after encode is the identity on every valid record, whatever the free tail bytes and whichever mask.
Under the default mask it needs only a length of at most 8 and id bits 31, 30 clear; it fails with either bit set. -/
def Obligations.CodecRoundTrip : Prop :=
  (∀ (tail : Nat → Byte) (mask : Config.IdMask) (f : FrameRecord), f.valid = true →
    decodeWire mask (encodeFrame tail f) = f) ∧
  (∀ (tail : Nat → Byte) (f : FrameRecord), f.wf = true → f.length.toNat ≤ 8 →
    (decodeWire .keepBit29 (encodeFrame tail f) = f ↔ f.id &&& 0xC0000000#32 = 0#32))

/-- Rule R93: the other direction. -/
def Obligations.CodecReverseRoundTrip : Prop :=
  ∀ (tail : Nat → Byte) (w : WireMessage),
    (w.dlc.toNat ≤ 8 → (encodeFrame tail (decodeWire .keepBit29 w)).equiv w = true) ∧
      (8 < w.dlc.toNat → (encodeFrame tail (decodeWire .keepBit29 w)).dlc = 8) ∧
      (w.dlc.toNat ≤ 8 → ((encodeFrame tail (decodeWire .dropBit29 w)).equiv w = true ↔ w.id.getLsbD 29 = false))

/-- Rules R73, R82: a wire id word tells its class from bits 31:30; presented on its own it gives the two flags and the
masked id, and writes no register. That it is presented on its own is the model's choice (log entries 2, 12). -/
def Obligations.WireIdClassesGiveFlagsAndId : Prop :=
  ∀ (a : BitVec 30) (s : State),
    exec (.wireidStdData a) s =
        .next { s with result := .wireId false false (a.setWidth 32 &&& s.params.idMask.word), cause := none } ∧
      exec (.wireidStdRemote a) s =
        .next { s with result := .wireId false true (a.setWidth 32 &&& s.params.idMask.word), cause := none } ∧
      exec (.wireidExtData a) s =
        .next { s with result := .wireId true false (a.setWidth 32 &&& s.params.idMask.word), cause := none } ∧
      exec (.wireidExtRemote a) s =
        .next { s with result := .wireId true true (a.setWidth 32 &&& s.params.idMask.word), cause := none }

/-! ## Frame Queue -/

/-- Rules R60, R100: TRY_PUSH with SYNC_LAG = false. -/
def Obligations.TryPushStoresOrDrops : Prop :=
  ∀ (s : State) (q : QueueSel) (f : FrameRecord), permitted s.issuer (.tryPush q f) = true →
    s.params.syncLag = false → (s.queue q).wptr < (s.queue q).cap →
    ((s.queue q).count = (s.queue q).cap →
      exec (.tryPush q f) s =
        .next { s.setQueue q { s.queue q with dropped := (s.queue q).dropped + 1 } with
                result := .bool false, cause := some .queueFull }) ∧
    ((s.queue q).count ≠ (s.queue q).cap → ∃ m : Memory,
      exec (.tryPush q f) s =
        .next { s.setQueue q { s.queue q with
                  slots := m, wptr := ((s.queue q).wptr + 1) % (s.queue q).cap, count := (s.queue q).count + 1,
                  pushed := (s.queue q).pushed + 1, pushes := (s.queue q).pushes + 1 } with
                result := .bool true, cause := none } ∧
        m.read (s.queue q).wptr = some f ∧
        ∀ j, j ≠ (s.queue q).wptr → m.read j = (s.queue q).slots.read j)

/-- Rule R61: TRY_PUSH with SYNC_LAG = true tests fullness against a copy that moved forward within its bounds. -/
def Obligations.TryPushUnderSyncLag : Prop :=
  ∀ (s : State) (q : QueueSel) (f : FrameRecord), permitted s.issuer (.tryPush q f) = true →
    s.params.syncLag = true → (s.queue q).Inv true →
    ∃ (seen : Nat) (o : Oracle), (s.queue q).popsSeen ≤ seen ∧ seen ≤ (s.queue q).pops ∧
      ((s.queue q).pushes - seen = (s.queue q).cap →
        exec (.tryPush q f) s =
          .next { s.setQueue q { s.queue q with popsSeen := seen, dropped := (s.queue q).dropped + 1 } with
                  oracle := o, result := .bool false, cause := some .queueFull }) ∧
      ((s.queue q).pushes - seen ≠ (s.queue q).cap → (s.queue q).count < (s.queue q).cap ∧ ∃ m : Memory,
        exec (.tryPush q f) s =
          .next { s.setQueue q { s.queue q with
                    popsSeen := seen, slots := m, wptr := ((s.queue q).wptr + 1) % (s.queue q).cap,
                    count := (s.queue q).count + 1, pushed := (s.queue q).pushed + 1,
                    pushes := (s.queue q).pushes + 1 } with
                  oracle := o, result := .bool true, cause := none } ∧
          m.read (s.queue q).wptr = some f ∧
          ∀ j, j ≠ (s.queue q).wptr → m.read j = (s.queue q).slots.read j)

/-- Rules R60, R101: TRY_POP with SYNC_LAG = false. -/
def Obligations.TryPopReturnsTheOldest : Prop :=
  ∀ (s : State) (q : QueueSel), permitted s.issuer (.tryPop q) = true → s.params.syncLag = false →
    (s.queue q).rptr < (s.queue q).cap →
    ((s.queue q).count = 0 →
      exec (.tryPop q) s = .next { s with result := .optFrame none, cause := none }) ∧
    ((s.queue q).count ≠ 0 →
      exec (.tryPop q) s =
        .next { s.setQueue q { s.queue q with
                  rptr := ((s.queue q).rptr + 1) % (s.queue q).cap, count := (s.queue q).count - 1,
                  pops := (s.queue q).pops + 1, popped := (s.queue q).popped + 1 } with
                result := .optFrame (some ((s.queue q).slotValue q (s.queue q).rptr)), cause := none })

/-- Rule R61: TRY_POP with SYNC_LAG = true tests emptiness against a copy that moved forward within its bounds. -/
def Obligations.TryPopUnderSyncLag : Prop :=
  ∀ (s : State) (q : QueueSel), permitted s.issuer (.tryPop q) = true → s.params.syncLag = true →
    (s.queue q).Inv true →
    ∃ (seen : Nat) (o : Oracle), (s.queue q).pushesSeen ≤ seen ∧ seen ≤ (s.queue q).pushes ∧
      (seen - (s.queue q).pops = 0 →
        exec (.tryPop q) s =
          .next { s.setQueue q { s.queue q with pushesSeen := seen } with
                  oracle := o, result := .optFrame none, cause := none }) ∧
      (seen - (s.queue q).pops ≠ 0 → 0 < (s.queue q).count ∧
        exec (.tryPop q) s =
          .next { s.setQueue q { s.queue q with
                    pushesSeen := seen, rptr := ((s.queue q).rptr + 1) % (s.queue q).cap,
                    count := (s.queue q).count - 1, pops := (s.queue q).pops + 1,
                    popped := (s.queue q).popped + 1 } with
                  oracle := o, result := .optFrame (some ((s.queue q).slotValue q (s.queue q).rptr)), cause := none })

/-- Rules R60, R65, R102, R103: the flags with SYNC_LAG = false, for either context; no state is written. -/
def Obligations.FlagsReadTheOccupancy : Prop :=
  ∀ (s : State) (q : QueueSel), s.params.syncLag = false →
    exec (.isEmpty q) s = .next { s with result := .bool (decide ((s.queue q).count = 0)), cause := none } ∧
      exec (.isFull q) s =
        .next { s with result := .bool (decide ((s.queue q).count = (s.queue q).cap)), cause := none }

/-- Rule R61: the flags with SYNC_LAG = true are the conservative tests, each from the side that asks; only that side's copy
moves. Which side a context asks from is the model's inference (log entry 6): of RXQ POLL the consumer and NOTIFY the
producer; of TXQ NOTIFY the consumer, and POLL, which is both, the side whose own test the flag is. -/
def Obligations.FlagsUnderSyncLag : Prop :=
  ∀ (s : State) (q : QueueSel), s.params.syncLag = true → (s.queue q).Inv true →
    (q = .tx ∨ s.issuer = .poll →
      ∃ (seen : Nat) (o : Oracle), (s.queue q).pushesSeen ≤ seen ∧ seen ≤ (s.queue q).pushes ∧
        exec (.isEmpty q) s =
          .next { s.setQueue q { s.queue q with pushesSeen := seen } with
                  oracle := o, result := .bool (decide (seen - (s.queue q).pops = 0)), cause := none }) ∧
    (q = .rx → s.issuer = .notify →
      ∃ (seen : Nat) (o : Oracle), (s.queue q).popsSeen ≤ seen ∧ seen ≤ (s.queue q).pops ∧
        exec (.isEmpty q) s =
          .next { s.setQueue q { s.queue q with popsSeen := seen } with
                  oracle := o, result := .bool (decide ((s.queue q).pushes - seen = 0)), cause := none }) ∧
    ((q = .rx ∧ s.issuer = .notify) ∨ (q = .tx ∧ s.issuer = .poll) →
      ∃ (seen : Nat) (o : Oracle), (s.queue q).popsSeen ≤ seen ∧ seen ≤ (s.queue q).pops ∧
        exec (.isFull q) s =
          .next { s.setQueue q { s.queue q with popsSeen := seen } with
                  oracle := o, result := .bool (decide ((s.queue q).pushes - seen = (s.queue q).cap)), cause := none }) ∧
    ((q = .rx ∧ s.issuer = .poll) ∨ (q = .tx ∧ s.issuer = .notify) →
      ∃ (seen : Nat) (o : Oracle), (s.queue q).pushesSeen ≤ seen ∧ seen ≤ (s.queue q).pushes ∧
        exec (.isFull q) s =
          .next { s.setQueue q { s.queue q with pushesSeen := seen } with
                  oracle := o, result := .bool (decide (seen - (s.queue q).pops = (s.queue q).cap)), cause := none })

/-- Rule R103: the flags are never both true, and with one slot exactly one of them is. -/
def Obligations.FlagsExcludeEachOther : Prop :=
  ∀ q : Queue, q.Inv false →
    (q.emptyFlag false && q.fullFlag false) = false ∧ (q.cap = 1 → (q.emptyFlag false = !q.fullFlag false))

/-- Rules R104, R165, R191: CLEAR by POLL on either queue, in Stopped and in Running. With nothing running into it; with
only NOTIFY_TX and NOTIFY_ERR due, which run after its writes; of TXQ with any notifications due, which do what they do
without it; of RXQ while a NOTIFY_RX is due, no meaning. That CLEAR has its effect in Running (rule R165 says "with the Engine
stopped") and where the overlap begins are the model's deductions (log entry 13), as is when a notification runs in (log
entry 3). `pushes`, `pops` and the copies count from the last CLEAR (rule R61); `cleared` is the observation of rule R110
(log entry 9). -/
def Obligations.ClearResetsPointers : Prop :=
  ∀ (s : State) (q : QueueSel), s.issuer = .poll →
    (s.Undisturbed →
      exec (.clear q) s =
        .next { s.setQueue q { s.queue q with
                  wptr := 0, rptr := 0, count := 0, pushes := 0, pops := 0, pushesSeen := 0, popsSeen := 0,
                  cleared := (s.queue q).cleared + (s.queue q).count } with result := .none, cause := none }) ∧
    (s.started.isSome = true → rxDue s.arrivals = false →
      exec (.clear q) s =
        .next { s.setQueue q { s.queue q with
                  wptr := 0, rptr := 0, count := 0, pushes := 0, pops := 0, pushesSeen := 0, popsSeen := 0,
                  cleared := (s.queue q).cleared + (s.queue q).count } with
                busErrors := s.busErrors + errorsDue s.arrivals, arrivals := laterArrivals s.arrivals,
                result := .none, cause := none }) ∧
    (∀ t, q = .tx → s.preempt = .next t →
      exec (.clear q) s =
        .next { t with
                txq := { s.txq with
                  wptr := 0, rptr := 0, count := 0, pushes := 0, pops := 0, pushesSeen := 0, popsSeen := 0,
                  cleared := s.txq.cleared + s.txq.count },
                result := .none, cause := none }) ∧
    (q = .rx → s.started.isSome = true → rxDue s.arrivals = true → exec (.clear q) s = .refused .clearOverlap)

/-- Rule R109: the counter reads, in any state, for either context. -/
def Obligations.CounterReadsGiveTheCounters : Prop :=
  ∀ (s : State) (q : QueueSel),
    exec (.rdPushed q) s = .next { s with result := .nat (s.queue q).pushed, cause := none } ∧
      exec (.rdDropped q) s = .next { s with result := .nat (s.queue q).dropped, cause := none }

/-- Rule R59, also under SYNC_LAG (rule R61): a successful push appends to the queued records, a successful pop returns
and removes the oldest, a failed one and a CLEAR deliver nothing. -/
def Obligations.QueueIsFifo : Prop :=
  ∀ (sel : QueueSel) (lag : Bool) (pick : Nat) (q : Queue), q.Inv lag →
    (∀ f, ∃ b p, q.tryPush lag pick f = .next (b, p) ∧
      p.contents sel = q.contents sel ++ (if b then [f] else [])) ∧
    (∃ r p, q.tryPop sel lag pick = .next (r, p) ∧ r.toList ++ p.contents sel = q.contents sel) ∧
    q.clear.contents sel = []

/-- Rule R106: N pushes, N at most the capacity, then N pops return the records in push order. -/
def Obligations.PopOrderIsPushOrder : Prop :=
  ∀ (sel : QueueSel) (q : Queue) (fs : List FrameRecord), q.Inv false → q.count = 0 → fs.length ≤ q.cap →
    (∀ f ∈ fs, f.wf = true) →
    ∃ p r, q.pushAll fs = .next (List.replicate fs.length true, p) ∧
      p.popTimes sel fs.length = .next (fs.map some, r) ∧ r.count = 0

/-- Rule R107: capacity + 1 pushes give exactly one failed push, and the first `capacity` records come back in order. -/
def Obligations.OverflowLosesTheNewest : Prop :=
  ∀ (sel : QueueSel) (q : Queue) (fs : List FrameRecord) (g : FrameRecord), q.Inv false → q.count = 0 →
    fs.length = q.cap → (∀ f ∈ fs, f.wf = true) →
    ∃ p r, q.pushAll (fs ++ [g]) = .next (List.replicate q.cap true ++ [false], p) ∧
      p.dropped = q.dropped + 1 ∧ p.popTimes sel q.cap = .next (fs.map some, r)

/-- Rule R110: every TRY_PUSH counts once, in `pushed` or in `dropped`; the number of pushed records is the number queued,
popped or discarded. `popped` and `cleared` are the model's observations (log entry 9). -/
def Obligations.CounterLaw : Prop :=
  ∀ (sel : QueueSel) (lag : Bool) (pick : Nat) (q : Queue),
    (∀ f b p, q.tryPush lag pick f = .next (b, p) → p.pushed + p.dropped = q.pushed + q.dropped + 1) ∧
    (∀ r p, q.tryPop sel lag pick = .next (r, p) → p.popped = q.popped + r.toList.length ∧ p.pushed = q.pushed ∧
      p.dropped = q.dropped) ∧
    (q.clear.cleared = q.cleared + q.count ∧ q.clear.pushed = q.pushed ∧ q.clear.dropped = q.dropped) ∧
    (q.Inv lag → q.pushed = q.count + q.popped + q.cleared)

/-- Rule R111: a push and a pop of one queue in either order. Between empty and full both succeed and the final state is
the same; on a full queue and on an empty one the two orders have the outcomes of the rule. -/
def Obligations.PushAndPopInEitherOrder : Prop :=
  ∀ (sel : QueueSel) (q : Queue) (f : FrameRecord), q.Inv false →
    (0 < q.count → q.count < q.cap → ∃ (g : FrameRecord) (a b c : Queue),
      q.tryPush false 0 f = .next (true, a) ∧ a.tryPop sel false 0 = .next (some g, c) ∧
      q.tryPop sel false 0 = .next (some g, b) ∧ b.tryPush false 0 f = .next (true, c)) ∧
    (q.count = q.cap → ∃ (g : FrameRecord) (a b c d : Queue),
      q.tryPop sel false 0 = .next (some g, a) ∧ a.tryPush false 0 f = .next (true, b) ∧ b.count = q.cap ∧
      b.dropped = q.dropped ∧
      q.tryPush false 0 f = .next (false, c) ∧ c.dropped = q.dropped + 1 ∧
      c.tryPop sel false 0 = .next (some g, d) ∧ d.count = q.cap - 1) ∧
    (q.count = 0 → ∃ (a b c : Queue),
      q.tryPush false 0 f = .next (true, a) ∧ a.tryPop sel false 0 = .next (some f, b) ∧ b.count = 0 ∧
      q.tryPop sel false 0 = .next (none, q) ∧ q.tryPush false 0 f = .next (true, c) ∧ c.count = 1)

/-- Rule R188 (the argument GK4): every interleaving of the micro-steps of one producer and one consumer runs, returns
results equal to those of the atomic operations in the order in which they completed, and leaves the same ring. -/
def Obligations.MicroStepsRefineAtomicOperations : Prop :=
  ∀ (sel : QueueSel) (q : Queue) (moves : List MicroMove), q.Inv false →
    ∃ (events : List MicroEvent) (m : MicroQueue) (p : Queue),
      MicroQueue.run sel { queue := q, push := .idle, pop := .idle } moves = .next (events, m) ∧
        q.atomicRun sel events = .next (events, p) ∧ p.SameRing sel m.queue

/-! ## Transport, polling context -/

/-- Rule R121: BEGIN from Stopped. With no notification coming, the state it leaves; with any, they run once the Engine is
started, on queues already cleared and counters already zeroed (corner case (b); the preemption point is the model's form, log
entry 3), and Running follows. -/
def Obligations.BeginStartsTheTransport : Prop :=
  ∀ s : State, s.issuer = .poll → s.runState = .stopped →
    (s.arrivals = [] →
      exec .beginRun s =
        .next { s with rxq := s.rxq.clear, txq := s.txq.clear, framesSent := 0, framesReceived := 0, sendErrors := 0,
                       busErrors := 0, engine := .present, started := some s.cfg, runState := .running,
                       result := .none, cause := none }) ∧
    exec .beginRun s =
      andThen (State.preempt { s with rxq := s.rxq.clear, txq := s.txq.clear, framesSent := 0, framesReceived := 0,
                                      sendErrors := 0, busErrors := 0, engine := .present, started := some s.cfg })
        fun t => .next { t with runState := .running, result := .none, cause := none }

/-- Rules R121, R122 (d), R134, R154, R158: what has no meaning in the Transport state at hand, a SEND of a length above 8,
and an AVAILABLE whose drain pops such a record, is refused, each by its own name. -/
def Obligations.OperationsOutOfPlaceAreRefused : Prop :=
  ∀ (s : State) (f : FrameRecord) (w : WireMessage),
    (s.issuer = .poll → s.runState = .running → exec .beginRun s = .refused (.misuse .beginWhileRunning)) ∧
    (s.issuer = .poll → s.runState = .running → 8 < f.length.toNat →
      exec (.send f) s = .refused (.misuse .encodeLength)) ∧
    (s.issuer = .poll → s.runState = .running → s.Undisturbed → s.params.syncLag = false → s.txq.count ≠ 0 →
      s.txq.rptr < s.txq.cap → s.askEngine.1 = true → 8 < (s.txq.slotValue .tx s.txq.rptr).length.toNat →
      exec .available s = .refused (.misuse .encodeLength)) ∧
    (s.issuer = .poll → s.runState = .stopped → ∀ i ∈ [Instr.available, .getNextFrame, .send f, .reset, .stop],
      exec i s = .refused (.misuse .notRunning)) ∧
    (s.issuer = .notify → s.runState = .stopped → ∀ i ∈ [Instr.notifyRx w, .notifyTx w, .notifyErr w],
      exec i s = .refused .notifyWhileStopped)

/-- Rule R122 (f): AVAILABLE with TXQ empty makes no Engine call and reports whether RXQ holds a record. -/
def Obligations.AvailableWithNothingToSend : Prop :=
  ∀ s : State, s.issuer = .poll → s.runState = .running → s.Undisturbed → s.params.syncLag = false → s.txq.count = 0 →
    exec .available s = .next { s with result := .bool (decide (s.rxq.count ≠ 0)), cause := none }

/-- Rules R122, R133: AVAILABLE answers a next state whatever the Engine answers, whatever notifications run into it and with
either SYNC_LAG, when the waiting frames are length-valid (corner case (d)). The frames that left TXQ are the oldest ones, in
order; each was submitted, and `engine_log` gained its encoding in that order, but for at most one rejected frame, which is
the last of them. The receive side is touched by notifications only. -/
def Obligations.AvailableCompletes : Prop :=
  ∀ s : State, s.Inv → s.issuer = .poll → s.runState = .running → (∀ f ∈ s.waiting, f.length.toNat ≤ 8) →
    ∃ t, exec .available s = .next t ∧
      (∃ (gone : List FrameRecord) (ws : List WireMessage), s.waiting = gone ++ t.waiting ∧
        t.engineLog = s.engineLog ++ ws ∧ t.framesSent = s.framesSent + ws.length ∧
        gone.length = ws.length + (t.sendErrors - s.sendErrors) ∧
        ∀ (k : Nat) (f : FrameRecord) (w : WireMessage), gone[k]? = some f → ws[k]? = some w → EncodedAs f w) ∧
      s.sendErrors ≤ t.sendErrors ∧ t.sendErrors ≤ s.sendErrors + 1 ∧ t.rxq.rptr = s.rxq.rptr ∧
      t.framesReceived = s.framesReceived ∧
      (s.arrivals = [] → s.params.syncLag = false → t.rxq = s.rxq ∧ t.result = .bool (decide (s.rxq.count ≠ 0)))

/-- Rule R135 (b): while the Engine accepts every submission, AVAILABLE empties TXQ, and the Engine records the K frames in
enqueue order. -/
def Obligations.DrainSendsEverythingInOrder : Prop :=
  ∀ (s : State) (rest : List Bool), s.Inv → s.issuer = .poll → s.runState = .running → s.Undisturbed →
    s.params.syncLag = false → (∀ f ∈ s.waiting, f.length.toNat ≤ 8) →
    s.oracle.answers = List.replicate (2 * s.txq.count) true ++ rest →
    ∃ (t : State) (ws : List WireMessage), exec .available s = .next t ∧
      t.txq.count = 0 ∧ t.waiting = [] ∧ t.engineLog = s.engineLog ++ ws ∧ ws.length = s.waiting.length ∧
      (∀ (k : Nat) (f : FrameRecord) (w : WireMessage), s.waiting[k]? = some f → ws[k]? = some w → EncodedAs f w) ∧
      t.framesSent = s.framesSent + s.txq.count ∧ t.sendErrors = s.sendErrors ∧
      t.result = .bool (decide (s.rxq.count ≠ 0)) ∧ t.oracle.answers = rest

/-- Rule R122: an Engine that does not accept stops the drain before any pop. It is asked exactly once (rule R136); how the
answers are kept is the model's form (log entry 4). -/
def Obligations.DrainStopsWhenEngineIsNotReady : Prop :=
  ∀ s : State, s.issuer = .poll → s.runState = .running → s.Undisturbed → s.params.syncLag = false →
    s.txq.count ≠ 0 → s.askEngine.1 = false →
    exec .available s =
      .next { s with oracle := s.askEngine.2.oracle, result := .bool (decide (s.rxq.count ≠ 0)), cause := none }

/-- Rules R122 (c), R150, R152: a frame popped by the drain and rejected by the Engine is lost and counted; the frames
behind it stay. Two Engine answers are used (rule R136) and one message is made; how both are kept is the model's form (log
entries 4, 7). -/
def Obligations.DrainLosesARejectedFrame : Prop :=
  ∀ s : State, s.issuer = .poll → s.runState = .running → s.Undisturbed → s.params.syncLag = false →
    s.txq.count ≠ 0 → s.txq.rptr < s.txq.cap → (s.txq.slotValue .tx s.txq.rptr).length.toNat ≤ 8 →
    s.askEngine.1 = true → s.askEngine.2.askEngine.1 = false →
    exec .available s =
      .next { s with oracle := { s.askEngine.2.askEngine.2.oracle with tails := s.oracle.tails + 1 },
                     sendErrors := s.sendErrors + 1,
                     txq := { s.txq with rptr := (s.txq.rptr + 1) % s.txq.cap, count := s.txq.count - 1,
                                         pops := s.txq.pops + 1, popped := s.txq.popped + 1 },
                     result := .bool (decide (s.rxq.count ≠ 0)), cause := some .engineRejected }

/-- Rule R123: GET_NEXT_FRAME, undisturbed. On an empty queue the all-zero record, nothing else changes (rule R150). With
SYNC_LAG = true "empty" is the consumer's test on its copy, which may lag behind a record that is queued (rule R61; how draws
are kept is the model's form, log entry 6). -/
def Obligations.GetNextFramePopsOne : Prop :=
  ∀ s : State, s.issuer = .poll → s.runState = .running → s.Undisturbed →
    (s.params.syncLag = false → s.rxq.rptr < s.rxq.cap →
      (s.rxq.count = 0 →
        exec .getNextFrame s =
          .next { s with result := .frame { id := 0, length := 0, isRemoteRequest := false, isExtended := false, data := [] },
                         cause := some (.misuse .getNextWhenEmpty) }) ∧
      (s.rxq.count ≠ 0 →
        exec .getNextFrame s =
          .next { s with rxq := { s.rxq with rptr := (s.rxq.rptr + 1) % s.rxq.cap, count := s.rxq.count - 1,
                                             pops := s.rxq.pops + 1, popped := s.rxq.popped + 1 },
                         framesReceived := s.framesReceived + 1,
                         result := .frame (s.rxq.slotValue .rx s.rxq.rptr), cause := none })) ∧
    (s.params.syncLag = true → s.rxq.Inv true →
      ∃ seen : Nat, s.rxq.pushesSeen ≤ seen ∧ seen ≤ s.rxq.pushes ∧
        (seen - s.rxq.pops = 0 →
          exec .getNextFrame s =
            .next { s with rxq := { s.rxq with pushesSeen := seen }, oracle := s.drawPick.2.oracle,
                           result := .frame { id := 0, length := 0, isRemoteRequest := false, isExtended := false, data := [] },
                           cause := some (.misuse .getNextWhenEmpty) }) ∧
        (seen - s.rxq.pops ≠ 0 → 0 < s.rxq.count ∧
          exec .getNextFrame s =
            .next { s with rxq := { s.rxq with pushesSeen := seen, rptr := (s.rxq.rptr + 1) % s.rxq.cap,
                                               count := s.rxq.count - 1, pops := s.rxq.pops + 1,
                                               popped := s.rxq.popped + 1 },
                           oracle := s.drawPick.2.oracle, framesReceived := s.framesReceived + 1,
                           result := .frame (s.rxq.slotValue .rx s.rxq.rptr), cause := none }))

/-- Rule R124, direct path: the Engine is ready; an accepted frame is logged and counted, a rejected one is lost and
counted; TXQ is untouched. Two Engine answers are used, canAccept and submit (rule R136), and one message is made; how both
are kept is the model's form (log entries 4, 7). -/
def Obligations.SendDirectPath : Prop :=
  ∀ (s : State) (f : FrameRecord), s.issuer = .poll → s.runState = .running → s.Undisturbed → f.wf = true →
    f.length.toNat ≤ 8 → s.askEngine.1 = true →
    (s.askEngine.2.askEngine.1 = true → ∃ w, EncodedAs f w ∧
      exec (.send f) s =
        .next { s with oracle := { s.askEngine.2.askEngine.2.oracle with tails := s.oracle.tails + 1 },
                       engineLog := s.engineLog ++ [w], framesSent := s.framesSent + 1, result := .bool true,
                       cause := none }) ∧
    (s.askEngine.2.askEngine.1 = false →
      exec (.send f) s =
        .next { s with oracle := { s.askEngine.2.askEngine.2.oracle with tails := s.oracle.tails + 1 },
                       sendErrors := s.sendErrors + 1, result := .bool false, cause := some .engineRejected })

/-- Rule R124, queued path: the Engine is not ready; the frame is enqueued and not counted as sent, or TXQ is full and the
failure is counted twice, in `sendErrors` and in `TXQ.dropped`. With SYNC_LAG = true "full" is the producer's test on its copy,
which may lag behind a slot that is free (rule R61). One Engine answer is used (rule R136); how answers and draws are kept is
the model's form (log entries 4, 6). -/
def Obligations.SendQueuedPath : Prop :=
  ∀ (s : State) (f : FrameRecord), s.issuer = .poll → s.runState = .running → s.Undisturbed → f.length.toNat ≤ 8 →
    s.askEngine.1 = false →
    (s.params.syncLag = false → s.txq.wptr < s.txq.cap →
      (s.txq.count ≠ s.txq.cap → ∃ m,
        exec (.send f) s =
          .next { s with oracle := s.askEngine.2.oracle, result := .bool true, cause := none,
                         txq := { s.txq with slots := m, wptr := (s.txq.wptr + 1) % s.txq.cap, count := s.txq.count + 1,
                                             pushed := s.txq.pushed + 1, pushes := s.txq.pushes + 1 } } ∧
        Memory.read m s.txq.wptr = some f ∧ ∀ j, j ≠ s.txq.wptr → Memory.read m j = s.txq.slots.read j) ∧
      (s.txq.count = s.txq.cap →
        exec (.send f) s =
          .next { s with oracle := s.askEngine.2.oracle, sendErrors := s.sendErrors + 1, result := .bool false,
                         cause := some .queueFull, txq := { s.txq with dropped := s.txq.dropped + 1 } })) ∧
    (s.params.syncLag = true → s.txq.Inv true →
      ∃ seen : Nat, s.txq.popsSeen ≤ seen ∧ seen ≤ s.txq.pops ∧
        (s.txq.pushes - seen ≠ s.txq.cap → s.txq.count < s.txq.cap ∧ ∃ m,
          exec (.send f) s =
            .next { s with oracle := s.askEngine.2.drawPick.2.oracle, result := .bool true, cause := none,
                           txq := { s.txq with popsSeen := seen, slots := m, wptr := (s.txq.wptr + 1) % s.txq.cap,
                                               count := s.txq.count + 1, pushed := s.txq.pushed + 1,
                                               pushes := s.txq.pushes + 1 } } ∧
          Memory.read m s.txq.wptr = some f ∧ ∀ j, j ≠ s.txq.wptr → Memory.read m j = s.txq.slots.read j) ∧
        (s.txq.pushes - seen = s.txq.cap →
          exec (.send f) s =
            .next { s with oracle := s.askEngine.2.drawPick.2.oracle, sendErrors := s.sendErrors + 1,
                           result := .bool false, cause := some .queueFull,
                           txq := { s.txq with popsSeen := seen, dropped := s.txq.dropped + 1 } }))

/-- Rules R138, R156: whatever notifications run into it, one SEND is exactly one of: submitted, enqueued, or one send
error. -/
def Obligations.SendHasExactlyOneOutcome : Prop :=
  ∀ (s t : State) (f : FrameRecord), exec (.send f) s = .next t →
    (t.framesSent + t.sendErrors + t.txq.pushed = s.framesSent + s.sendErrors + s.txq.pushed + 1) ∧
      (t.result = .bool true ↔ t.sendErrors = s.sendErrors) ∧ s.framesSent ≤ t.framesSent ∧
      s.sendErrors ≤ t.sendErrors ∧ s.txq.pushed ≤ t.txq.pushed ∧ t.framesReceived = s.framesReceived

/-- Rule R138: `engine_log` is only ever extended, and outside BEGIN and RESET by exactly as many entries as `framesSent`
grows. -/
def Obligations.LogGrowsWithFramesSent : Prop :=
  ∀ (i : Instr) (s t : State), exec i s = .next t →
    (∃ ws, t.engineLog = s.engineLog ++ ws ∧
      (i ≠ .beginRun → i ≠ .reset → t.framesSent = s.framesSent + ws.length) ∧
      ((i = .beginRun ∨ i = .reset) → ws = [] ∧ t.framesSent = 0))

/-- Rules R128, R135 (c): RESET from Running. With no notification coming, the state it leaves; with any, they run once the
Engine is started again, on queues already cleared and counters already zeroed (the preemption point is the model's form, log
entry 3), and Running follows. -/
def Obligations.ResetReinitialises : Prop :=
  ∀ s : State, s.issuer = .poll → s.runState = .running →
    (s.arrivals = [] →
      exec .reset s =
        .next { s with rxq := s.rxq.clear, txq := s.txq.clear, framesSent := 0, framesReceived := 0, sendErrors := 0,
                       busErrors := 0, engine := .present, started := some s.cfg, runState := .running,
                       result := .none, cause := none }) ∧
    exec .reset s =
      andThen (State.preempt { s with rxq := s.rxq.clear, txq := s.txq.clear, framesSent := 0, framesReceived := 0,
                                      sendErrors := 0, busErrors := 0, engine := .present, started := some s.cfg,
                                      runState := .stopped })
        fun t => .next { t with runState := .running, result := .none, cause := none }

/-- Rule R183: from Running, STOP then BEGIN gives the state RESET gives, whatever notifications run into them. -/
def Obligations.StopThenBeginIsReset : Prop :=
  ∀ s : State, s.issuer = .poll → s.runState = .running →
    andThen (exec .stop s) (exec .beginRun) = exec .reset s

/-- Rule R129: STOP from Running keeps the queues and the counters; in Stopped it is refused. -/
def Obligations.StopKeepsQueuesAndCounters : Prop :=
  ∀ s : State, s.issuer = .poll →
    (s.runState = .running →
      exec .stop s =
        .next { s with engine := .absent, started := none, runState := .stopped, result := .none, cause := none }) ∧
    (s.runState = .stopped → exec .stop s = .refused (.misuse .notRunning))

/-- Rules R130 to R132: the count reads, in both Transport states. -/
def Obligations.CountReadsGiveTheStatistics : Prop :=
  ∀ s : State, s.issuer = .poll →
    exec .receivedCount s = .next { s with result := .nat s.framesReceived, cause := none } ∧
      exec .sentCount s = .next { s with result := .nat s.framesSent, cause := none } ∧
      exec .sendErrorCount s = .next { s with result := .nat s.sendErrors, cause := none }

/-! ## Notification context -/

/-- Rules R125, R150: NOTIFY_RX decodes and pushes, or drops and counts; `framesReceived` does not move. With SYNC_LAG = true
"full" is the producer's test on its copy, which may lag behind a slot that is free (rule R61; how draws are kept is the
model's form, log entry 6). -/
def Obligations.NotifyRxQueuesTheDecodedFrame : Prop :=
  ∀ (s : State) (w : WireMessage), s.issuer = .notify → s.runState = .running →
    (s.params.syncLag = false → s.rxq.wptr < s.rxq.cap →
      (s.rxq.count ≠ s.rxq.cap → ∃ m,
        exec (.notifyRx w) s =
          .next { s with result := .none, cause := none,
                         rxq := { s.rxq with slots := m, wptr := (s.rxq.wptr + 1) % s.rxq.cap, count := s.rxq.count + 1,
                                             pushed := s.rxq.pushed + 1, pushes := s.rxq.pushes + 1 } } ∧
        Memory.read m s.rxq.wptr = some (decodeWire s.params.idMask w) ∧
        ∀ j, j ≠ s.rxq.wptr → Memory.read m j = s.rxq.slots.read j) ∧
      (s.rxq.count = s.rxq.cap →
        exec (.notifyRx w) s =
          .next { s with result := .none, cause := some .queueFull,
                         rxq := { s.rxq with dropped := s.rxq.dropped + 1 } })) ∧
    (s.params.syncLag = true → s.rxq.Inv true →
      ∃ seen : Nat, s.rxq.popsSeen ≤ seen ∧ seen ≤ s.rxq.pops ∧
        (s.rxq.pushes - seen ≠ s.rxq.cap → s.rxq.count < s.rxq.cap ∧ ∃ m,
          exec (.notifyRx w) s =
            .next { s with oracle := s.drawPick.2.oracle, result := .none, cause := none,
                           rxq := { s.rxq with popsSeen := seen, slots := m, wptr := (s.rxq.wptr + 1) % s.rxq.cap,
                                               count := s.rxq.count + 1, pushed := s.rxq.pushed + 1,
                                               pushes := s.rxq.pushes + 1 } } ∧
          Memory.read m s.rxq.wptr = some (decodeWire s.params.idMask w) ∧
          ∀ j, j ≠ s.rxq.wptr → Memory.read m j = s.rxq.slots.read j) ∧
        (s.rxq.pushes - seen = s.rxq.cap →
          exec (.notifyRx w) s =
            .next { s with oracle := s.drawPick.2.oracle, result := .none, cause := some .queueFull,
                           rxq := { s.rxq with popsSeen := seen, dropped := s.rxq.dropped + 1 } }))

/-- Rules R126, R127: NOTIFY_TX changes nothing of the block, NOTIFY_ERR only `busErrors`. -/
def Obligations.NotifyTxAndErrEffects : Prop :=
  ∀ (s : State) (w : WireMessage), s.issuer = .notify → s.runState = .running →
    exec (.notifyTx w) s = .next { s with result := .none, cause := none } ∧
      exec (.notifyErr w) s =
        .next { s with busErrors := s.busErrors + 1, result := .none, cause := some .engineError }

/-! ## Whole-machine rules -/

/-- Rule R165: which context may issue which operation; what is not allowed has no meaning. -/
def Obligations.ContextsAreEnforced : Prop :=
  ∀ (s : State) (f : FrameRecord) (w : WireMessage),
    (s.issuer = .poll → ∀ i ∈ [Instr.tryPush .rx f, .notifyRx w, .notifyTx w, .notifyErr w],
      exec i s = .refused .wrongContext) ∧
    (s.issuer = .notify → ∀ i ∈ [Instr.tryPop .rx, .tryPush .tx f, .clear .rx, .clear .tx, .beginRun, .available,
        .getNextFrame, .send f, .reset, .stop, .receivedCount, .sentCount, .sendErrorCount],
      exec i s = .refused .wrongContext)

/-- No operation is stuck: from every state of the invariant, an operation its context may issue (rule R165), in a Transport
state and with operands that give it a meaning, answers a next state, whatever the Engine answers, whatever notifications
run into it and with either SYNC_LAG (rules R12, R105, R122 (a), R134, R165, R166). CLEAR of RXQ in Running with no NOTIFY_RX
due is in place by the model's deduction (log entry 13), and so is TRY_POP of TXQ by NOTIFY (log entry 14). A codec or queue
operation by NOTIFY in Stopped is in place by the model's choice (log entry 22). -/
def Obligations.OperationsInPlaceComplete : Prop :=
  ∀ (i : Instr) (s : State), s.Inv → permitted s.issuer i = true → s.InPlace i → ∃ t, exec i s = .next t

/-- Rule R120: only BEGIN, RESET and STOP change `run_state`, along the table's transitions. -/
def Obligations.RunStateTransitions : Prop :=
  ∀ (i : Instr) (s t : State), exec i s = .next t →
    (i = .beginRun → s.runState = .stopped ∧ t.runState = .running) ∧
    (i = .stop → s.runState = .running ∧ t.runState = .stopped) ∧
    (i = .reset → s.runState = .running ∧ t.runState = .running) ∧
    (i ≠ .beginRun → i ≠ .stop → i ≠ .reset → t.runState = s.runState)

/-- Rules R33, R108: no operation changes a capacity, the Engine configuration or a parameter. -/
def Obligations.ConfigurationNeverChanges : Prop :=
  ∀ (i : Instr) (s t : State), exec i s = .next t →
    t.rxq.cap = s.rxq.cap ∧ t.txq.cap = s.txq.cap ∧ t.cfg = s.cfg ∧ t.params = s.params

/-- Rules R65, R94: the codec, the flags and the counter reads write no register; only the returned value moves, and the
model's own counter of free tail bytes (SYNC_LAG = false), which is its choice of form (log entry 7). The four wire id classes
write none either: that such a word is an operation at all, and one that writes nothing, is the model's choice (DESIGN CHOICE,
log entry 12), of which rules R65 and R94 do not speak. -/
def Obligations.ReadsAndCodecWriteNothing : Prop :=
  ∀ (i : Instr) (s t : State), s.params.syncLag = false → exec i s = .next t →
    (match i with
     | .encode _ | .decode _ | .isEmpty _ | .isFull _ | .rdPushed _ | .rdDropped _ | .receivedCount | .sentCount
     | .sendErrorCount | .wireidStdData _ | .wireidStdRemote _ | .wireidExtData _ | .wireidExtRemote _ =>
       t = { s with result := t.result, cause := none, oracle := { s.oracle with tails := t.oracle.tails } }
     | _ => True)

/-- Rule R39, NOTIFY's column: an operation of the notification context leaves the statistics, the run state, the Engine
handle, `RXQ.rptr` and the write side of TXQ as they are; `TXQ` changes only by a TRY_POP issued on its read port. -/
def Obligations.NotifyTouchesOnlyItsState : Prop :=
  ∀ (i : Instr) (s t : State), s.issuer = .notify → exec i s = .next t →
    t.framesSent = s.framesSent ∧ t.framesReceived = s.framesReceived ∧ t.sendErrors = s.sendErrors ∧
      t.runState = s.runState ∧ t.engine = s.engine ∧ t.rxq.rptr = s.rxq.rptr ∧ t.txq.slots = s.txq.slots ∧
      t.txq.wptr = s.txq.wptr ∧ t.txq.pushed = s.txq.pushed ∧ t.txq.dropped = s.txq.dropped ∧
      t.engineLog = s.engineLog ∧ (i ≠ .tryPop .tx → t.txq.rptr = s.txq.rptr ∧ t.txq.count = s.txq.count)

/-- Rule R39, POLL's column: undisturbed, an operation of the polling context leaves the slots and counters of RXQ and the
bus error counter as they are, but that BEGIN and RESET zero the latter; `RXQ.wptr` changes only by a clear. -/
def Obligations.PollTouchesOnlyItsState : Prop :=
  ∀ (i : Instr) (s t : State), s.issuer = .poll → s.arrivals = [] → exec i s = .next t →
    t.rxq.slots = s.rxq.slots ∧ t.rxq.pushed = s.rxq.pushed ∧ t.rxq.dropped = s.rxq.dropped ∧
      (i ≠ .clear .rx → i ≠ .beginRun → i ≠ .reset → t.rxq.wptr = s.rxq.wptr) ∧
      (i ≠ .beginRun → i ≠ .reset → t.busErrors = s.busErrors)

/-- Rules R66, R161: a SEND or an AVAILABLE that notifications run into does to the transmit side exactly what it does
without them; SEND also returns the same value. Where notifications run in is the model's form (log entry 3). -/
def Obligations.NotificationsDoNotDisturbTransmission : Prop :=
  ∀ (i : Instr) (s t u : State), (i = .available ∨ ∃ f, i = .send f) → s.params.syncLag = false →
    exec i s = .next t → exec i { s with arrivals := [] } = .next u →
    t.txq = u.txq ∧ t.framesSent = u.framesSent ∧ t.sendErrors = u.sendErrors ∧ t.framesReceived = u.framesReceived ∧
      t.engineLog = u.engineLog ∧ t.cause = u.cause ∧ t.oracle = u.oracle ∧ t.runState = u.runState ∧
      (i ≠ .available → t.result = u.result)

/-- Rules R66, R160: a notification that is due at the first point inside a SEND has the effect it has when it runs before
that SEND. The preemption points are the model's form of rule R66 (log entry 3). -/
def Obligations.PreemptionEqualsRunningBefore : Prop :=
  ∀ (s : State) (f : FrameRecord) (n : Notification), s.issuer = .poll → s.runState = .running →
    s.started.isSome = true → f.length.toNat ≤ 8 →
    exec (.send f) { s with arrivals := [{ gap := 0, event := n }] } =
      andThen (s.notify n) fun r => exec (.send f) { r.2 with arrivals := [] }

/-- Rules R67 (a), R195: once AVAILABLE has returned true, GET_NEXT_FRAME returns the oldest received record, whatever
notifications come between. -/
def Obligations.TrueFromAvailableStaysGood : Prop :=
  ∀ (s t u : State) (ns : List Notification), s.Inv → exec .available s = .next t → t.result = .bool true →
    t.serveAll ns = .next u →
    ∃ f rest v, t.rxq.contents .rx = f :: rest ∧ exec .getNextFrame { u with arrivals := [] } = .next v ∧
      v.result = .frame f ∧ v.framesReceived = t.framesReceived + 1 ∧ v.cause = none

/-- Rules R40, R159, R169: a step of one instance is its own step and leaves every other instance as it is. -/
def Obligations.InstancesShareNothing : Prop :=
  ∀ (k : Nat) (a b : Instances), stepInstance k a = .next b →
    b.length = a.length ∧ (∀ j, j ≠ k → b[j]? = a[j]?) ∧
      (∀ s, a[k]? = some s → ∃ t, step s = .next t ∧ b[k]? = some t)
end

