-- ==== Sys2Proof/Laws/Memory.lean ====
section
/-! SUPPORT. The slots of a queue: a read after a write, and that a write keeps the canonical form. -/
namespace Sys2Proof.Machine

/-- A slot that was written reads as the record written. -/
@[simp] theorem Memory.read_write_same (m : Memory) (i : Nat) (f : FrameRecord) : Memory.read (m.write i f) i = some f := by
  induction m with
  | nil => simp [Memory.write, Memory.read]
  | cons p rest ih =>
    obtain ⟨j, g⟩ := p
    by_cases h1 : i < j
    · simp [Memory.write, h1, Memory.read]
    · by_cases h2 : i = j
      · simp [Memory.write, h2, Memory.read]
      · have h3 : j ≠ i := fun h => h2 h.symm
        simp [Memory.write, h1, h2, Memory.read, h3, ih]

/-- A write leaves every other slot alone. -/
theorem Memory.read_write_other (m : Memory) (i j : Nat) (f : FrameRecord) (h : j ≠ i) :
    Memory.read (m.write i f) j = Memory.read m j := by
  induction m with
  | nil => simp [Memory.write, Memory.read, h.symm]
  | cons p rest ih =>
    obtain ⟨k, g⟩ := p
    by_cases h1 : i < k
    · simp [Memory.write, h1, Memory.read, h.symm]
    · by_cases h2 : i = k
      · subst h2; simp [Memory.write, Memory.read, h.symm]
      · simp [Memory.write, h1, h2, Memory.read, ih]

/-- A listed slot after a write is the written one or was listed before. -/
theorem Memory.mem_write {m : Memory} {i : Nat} {f : FrameRecord} {p : Nat × FrameRecord} (h : p ∈ m.write i f) :
    p = (i, f) ∨ p ∈ m := by
  induction m with
  | nil => simpa [Memory.write] using h
  | cons q rest ih =>
    obtain ⟨k, g⟩ := q
    by_cases h1 : i < k
    · simpa [Memory.write, h1] using h
    · by_cases h2 : i = k
      · subst h2
        simp only [Memory.write, Nat.lt_irrefl, if_false, if_true, List.mem_cons] at h
        rcases h with h | h
        · exact .inl h
        · exact .inr (List.mem_cons_of_mem _ h)
      · simp only [Memory.write, h1, h2, if_false, List.mem_cons] at h
        rcases h with h | h
        · exact .inr (by simp [h])
        · exact (ih h).imp id (List.mem_cons_of_mem _)

theorem Memory.above_iff {lo : Nat} {m : Memory} : Memory.above lo m = true ↔ ∀ p ∈ m, lo < p.1 := by
  simp [Memory.above]

/-- A write keeps the canonical form. -/
theorem Memory.write_wf {m : Memory} (i : Nat) (f : FrameRecord) (h : m.wf = true) : (m.write i f).wf = true := by
  induction m with
  | nil => simp [Memory.write, Memory.wf, Memory.above]
  | cons p rest ih =>
    obtain ⟨j, g⟩ := p
    simp only [Memory.wf, Bool.and_eq_true, Memory.above_iff] at h
    obtain ⟨habove, hrest⟩ := h
    by_cases h1 : i < j
    · simp only [Memory.write, h1, if_true, Memory.wf, Bool.and_eq_true, Memory.above_iff, List.mem_cons]
      refine ⟨?_, habove, hrest⟩
      rintro p (rfl | hp)
      · exact h1
      · exact Nat.lt_trans h1 (habove p hp)
    · by_cases h2 : i = j
      · subst h2
        simp only [Memory.write, Nat.lt_irrefl, if_false, if_true, Memory.wf, Bool.and_eq_true, Memory.above_iff]
        exact ⟨habove, hrest⟩
      · simp only [Memory.write, h1, h2, if_false, Memory.wf, Bool.and_eq_true, Memory.above_iff]
        refine ⟨?_, ih hrest⟩
        intro p hp
        rcases Memory.mem_write hp with rfl | hp
        · omega
        · exact habove p hp

/-- `MemRead` answers exactly inside the slots (rule R52). -/
theorem memRead_eq_next {sel : QueueSel} {q : Queue} {i : Nat} {f : FrameRecord} :
    memRead sel q i = .next f ↔ i < q.cap ∧ q.slotValue sel i = f := by
  unfold memRead; by_cases h : i < q.cap <;> simp [h]

/-- `MemWrite` answers exactly inside the slots (rule R52). -/
theorem memWrite_eq_next {q : Queue} {i : Nat} {f : FrameRecord} {m : Memory} :
    memWrite q i f = .next m ↔ i < q.cap ∧ q.slots.write i f = m := by
  unfold memWrite; by_cases h : i < q.cap <;> simp [h]

end Sys2Proof.Machine
end

