-- ==== Sys2Proof/Laws/State.lean ====
section
/-! SUPPORT. What every named update of the state does to every field, so that no later proof unfolds a record update. -/
namespace Sys2Proof.Machine

/-! ### setQueue -/

@[simp] theorem State.setQueue_runState (s : State) (sel : QueueSel) (q : Queue) : (s.setQueue sel q).runState = s.runState := by cases sel <;> rfl
@[simp] theorem State.setQueue_engine (s : State) (sel : QueueSel) (q : Queue) : (s.setQueue sel q).engine = s.engine := by cases sel <;> rfl
@[simp] theorem State.setQueue_started (s : State) (sel : QueueSel) (q : Queue) : (s.setQueue sel q).started = s.started := by cases sel <;> rfl
@[simp] theorem State.setQueue_framesSent (s : State) (sel : QueueSel) (q : Queue) : (s.setQueue sel q).framesSent = s.framesSent := by cases sel <;> rfl
@[simp] theorem State.setQueue_framesReceived (s : State) (sel : QueueSel) (q : Queue) : (s.setQueue sel q).framesReceived = s.framesReceived := by cases sel <;> rfl
@[simp] theorem State.setQueue_sendErrors (s : State) (sel : QueueSel) (q : Queue) : (s.setQueue sel q).sendErrors = s.sendErrors := by cases sel <;> rfl
@[simp] theorem State.setQueue_busErrors (s : State) (sel : QueueSel) (q : Queue) : (s.setQueue sel q).busErrors = s.busErrors := by cases sel <;> rfl
@[simp] theorem State.setQueue_cfg (s : State) (sel : QueueSel) (q : Queue) : (s.setQueue sel q).cfg = s.cfg := by cases sel <;> rfl
@[simp] theorem State.setQueue_params (s : State) (sel : QueueSel) (q : Queue) : (s.setQueue sel q).params = s.params := by cases sel <;> rfl
@[simp] theorem State.setQueue_engineLog (s : State) (sel : QueueSel) (q : Queue) : (s.setQueue sel q).engineLog = s.engineLog := by cases sel <;> rfl
@[simp] theorem State.setQueue_result (s : State) (sel : QueueSel) (q : Queue) : (s.setQueue sel q).result = s.result := by cases sel <;> rfl
@[simp] theorem State.setQueue_cause (s : State) (sel : QueueSel) (q : Queue) : (s.setQueue sel q).cause = s.cause := by cases sel <;> rfl
@[simp] theorem State.setQueue_requests (s : State) (sel : QueueSel) (q : Queue) : (s.setQueue sel q).requests = s.requests := by cases sel <;> rfl
@[simp] theorem State.setQueue_issuer (s : State) (sel : QueueSel) (q : Queue) : (s.setQueue sel q).issuer = s.issuer := by cases sel <;> rfl
@[simp] theorem State.setQueue_arrivals (s : State) (sel : QueueSel) (q : Queue) : (s.setQueue sel q).arrivals = s.arrivals := by cases sel <;> rfl
@[simp] theorem State.setQueue_oracle (s : State) (sel : QueueSel) (q : Queue) : (s.setQueue sel q).oracle = s.oracle := by cases sel <;> rfl

/-! ### finish -/

@[simp] theorem State.finish_rxq (s : State) (r : Result) (c : Option ErrorClass) : (s.finish r c).rxq = s.rxq := rfl
@[simp] theorem State.finish_txq (s : State) (r : Result) (c : Option ErrorClass) : (s.finish r c).txq = s.txq := rfl
@[simp] theorem State.finish_runState (s : State) (r : Result) (c : Option ErrorClass) : (s.finish r c).runState = s.runState := rfl
@[simp] theorem State.finish_engine (s : State) (r : Result) (c : Option ErrorClass) : (s.finish r c).engine = s.engine := rfl
@[simp] theorem State.finish_started (s : State) (r : Result) (c : Option ErrorClass) : (s.finish r c).started = s.started := rfl
@[simp] theorem State.finish_framesSent (s : State) (r : Result) (c : Option ErrorClass) : (s.finish r c).framesSent = s.framesSent := rfl
@[simp] theorem State.finish_framesReceived (s : State) (r : Result) (c : Option ErrorClass) : (s.finish r c).framesReceived = s.framesReceived := rfl
@[simp] theorem State.finish_sendErrors (s : State) (r : Result) (c : Option ErrorClass) : (s.finish r c).sendErrors = s.sendErrors := rfl
@[simp] theorem State.finish_busErrors (s : State) (r : Result) (c : Option ErrorClass) : (s.finish r c).busErrors = s.busErrors := rfl
@[simp] theorem State.finish_cfg (s : State) (r : Result) (c : Option ErrorClass) : (s.finish r c).cfg = s.cfg := rfl
@[simp] theorem State.finish_params (s : State) (r : Result) (c : Option ErrorClass) : (s.finish r c).params = s.params := rfl
@[simp] theorem State.finish_engineLog (s : State) (r : Result) (c : Option ErrorClass) : (s.finish r c).engineLog = s.engineLog := rfl
@[simp] theorem State.finish_result (s : State) (r : Result) (c : Option ErrorClass) : (s.finish r c).result = r := rfl
@[simp] theorem State.finish_cause (s : State) (r : Result) (c : Option ErrorClass) : (s.finish r c).cause = c := rfl
@[simp] theorem State.finish_requests (s : State) (r : Result) (c : Option ErrorClass) : (s.finish r c).requests = s.requests := rfl
@[simp] theorem State.finish_issuer (s : State) (r : Result) (c : Option ErrorClass) : (s.finish r c).issuer = s.issuer := rfl
@[simp] theorem State.finish_arrivals (s : State) (r : Result) (c : Option ErrorClass) : (s.finish r c).arrivals = s.arrivals := rfl
@[simp] theorem State.finish_oracle (s : State) (r : Result) (c : Option ErrorClass) : (s.finish r c).oracle = s.oracle := rfl

/-! ### take -/

@[simp] theorem State.take_rxq (s : State) (r : Request) (rest : List Request) : (s.take r rest).rxq = s.rxq := rfl
@[simp] theorem State.take_txq (s : State) (r : Request) (rest : List Request) : (s.take r rest).txq = s.txq := rfl
@[simp] theorem State.take_runState (s : State) (r : Request) (rest : List Request) : (s.take r rest).runState = s.runState := rfl
@[simp] theorem State.take_engine (s : State) (r : Request) (rest : List Request) : (s.take r rest).engine = s.engine := rfl
@[simp] theorem State.take_started (s : State) (r : Request) (rest : List Request) : (s.take r rest).started = s.started := rfl
@[simp] theorem State.take_framesSent (s : State) (r : Request) (rest : List Request) : (s.take r rest).framesSent = s.framesSent := rfl
@[simp] theorem State.take_framesReceived (s : State) (r : Request) (rest : List Request) : (s.take r rest).framesReceived = s.framesReceived := rfl
@[simp] theorem State.take_sendErrors (s : State) (r : Request) (rest : List Request) : (s.take r rest).sendErrors = s.sendErrors := rfl
@[simp] theorem State.take_busErrors (s : State) (r : Request) (rest : List Request) : (s.take r rest).busErrors = s.busErrors := rfl
@[simp] theorem State.take_cfg (s : State) (r : Request) (rest : List Request) : (s.take r rest).cfg = s.cfg := rfl
@[simp] theorem State.take_params (s : State) (r : Request) (rest : List Request) : (s.take r rest).params = s.params := rfl
@[simp] theorem State.take_engineLog (s : State) (r : Request) (rest : List Request) : (s.take r rest).engineLog = s.engineLog := rfl
@[simp] theorem State.take_result (s : State) (r : Request) (rest : List Request) : (s.take r rest).result = s.result := rfl
@[simp] theorem State.take_cause (s : State) (r : Request) (rest : List Request) : (s.take r rest).cause = s.cause := rfl
@[simp] theorem State.take_requests (s : State) (r : Request) (rest : List Request) : (s.take r rest).requests = rest := rfl
@[simp] theorem State.take_issuer (s : State) (r : Request) (rest : List Request) : (s.take r rest).issuer = r.context := rfl
@[simp] theorem State.take_arrivals (s : State) (r : Request) (rest : List Request) : (s.take r rest).arrivals = s.arrivals := rfl
@[simp] theorem State.take_oracle (s : State) (r : Request) (rest : List Request) : (s.take r rest).oracle = s.oracle := rfl

/-! ### startEngine -/

@[simp] theorem State.startEngine_rxq (s : State) : (s.startEngine).rxq = s.rxq := rfl
@[simp] theorem State.startEngine_txq (s : State) : (s.startEngine).txq = s.txq := rfl
@[simp] theorem State.startEngine_runState (s : State) : (s.startEngine).runState = s.runState := rfl
@[simp] theorem State.startEngine_engine (s : State) : (s.startEngine).engine = s.engine := rfl
@[simp] theorem State.startEngine_started (s : State) : (s.startEngine).started = some s.cfg := rfl
@[simp] theorem State.startEngine_framesSent (s : State) : (s.startEngine).framesSent = s.framesSent := rfl
@[simp] theorem State.startEngine_framesReceived (s : State) : (s.startEngine).framesReceived = s.framesReceived := rfl
@[simp] theorem State.startEngine_sendErrors (s : State) : (s.startEngine).sendErrors = s.sendErrors := rfl
@[simp] theorem State.startEngine_busErrors (s : State) : (s.startEngine).busErrors = s.busErrors := rfl
@[simp] theorem State.startEngine_cfg (s : State) : (s.startEngine).cfg = s.cfg := rfl
@[simp] theorem State.startEngine_params (s : State) : (s.startEngine).params = s.params := rfl
@[simp] theorem State.startEngine_engineLog (s : State) : (s.startEngine).engineLog = s.engineLog := rfl
@[simp] theorem State.startEngine_result (s : State) : (s.startEngine).result = s.result := rfl
@[simp] theorem State.startEngine_cause (s : State) : (s.startEngine).cause = s.cause := rfl
@[simp] theorem State.startEngine_requests (s : State) : (s.startEngine).requests = s.requests := rfl
@[simp] theorem State.startEngine_issuer (s : State) : (s.startEngine).issuer = s.issuer := rfl
@[simp] theorem State.startEngine_arrivals (s : State) : (s.startEngine).arrivals = s.arrivals := rfl
@[simp] theorem State.startEngine_oracle (s : State) : (s.startEngine).oracle = s.oracle := rfl

/-! ### stopEngine -/

@[simp] theorem State.stopEngine_rxq (s : State) : (s.stopEngine).rxq = s.rxq := rfl
@[simp] theorem State.stopEngine_txq (s : State) : (s.stopEngine).txq = s.txq := rfl
@[simp] theorem State.stopEngine_runState (s : State) : (s.stopEngine).runState = s.runState := rfl
@[simp] theorem State.stopEngine_engine (s : State) : (s.stopEngine).engine = s.engine := rfl
@[simp] theorem State.stopEngine_started (s : State) : (s.stopEngine).started = none := rfl
@[simp] theorem State.stopEngine_framesSent (s : State) : (s.stopEngine).framesSent = s.framesSent := rfl
@[simp] theorem State.stopEngine_framesReceived (s : State) : (s.stopEngine).framesReceived = s.framesReceived := rfl
@[simp] theorem State.stopEngine_sendErrors (s : State) : (s.stopEngine).sendErrors = s.sendErrors := rfl
@[simp] theorem State.stopEngine_busErrors (s : State) : (s.stopEngine).busErrors = s.busErrors := rfl
@[simp] theorem State.stopEngine_cfg (s : State) : (s.stopEngine).cfg = s.cfg := rfl
@[simp] theorem State.stopEngine_params (s : State) : (s.stopEngine).params = s.params := rfl
@[simp] theorem State.stopEngine_engineLog (s : State) : (s.stopEngine).engineLog = s.engineLog := rfl
@[simp] theorem State.stopEngine_result (s : State) : (s.stopEngine).result = s.result := rfl
@[simp] theorem State.stopEngine_cause (s : State) : (s.stopEngine).cause = s.cause := rfl
@[simp] theorem State.stopEngine_requests (s : State) : (s.stopEngine).requests = s.requests := rfl
@[simp] theorem State.stopEngine_issuer (s : State) : (s.stopEngine).issuer = s.issuer := rfl
@[simp] theorem State.stopEngine_arrivals (s : State) : (s.stopEngine).arrivals = s.arrivals := rfl
@[simp] theorem State.stopEngine_oracle (s : State) : (s.stopEngine).oracle = s.oracle := rfl

/-! ### zeroCounters -/

@[simp] theorem State.zeroCounters_rxq (s : State) : (s.zeroCounters).rxq = s.rxq := rfl
@[simp] theorem State.zeroCounters_txq (s : State) : (s.zeroCounters).txq = s.txq := rfl
@[simp] theorem State.zeroCounters_runState (s : State) : (s.zeroCounters).runState = s.runState := rfl
@[simp] theorem State.zeroCounters_engine (s : State) : (s.zeroCounters).engine = s.engine := rfl
@[simp] theorem State.zeroCounters_started (s : State) : (s.zeroCounters).started = s.started := rfl
@[simp] theorem State.zeroCounters_framesSent (s : State) : (s.zeroCounters).framesSent = 0 := rfl
@[simp] theorem State.zeroCounters_framesReceived (s : State) : (s.zeroCounters).framesReceived = 0 := rfl
@[simp] theorem State.zeroCounters_sendErrors (s : State) : (s.zeroCounters).sendErrors = 0 := rfl
@[simp] theorem State.zeroCounters_busErrors (s : State) : (s.zeroCounters).busErrors = 0 := rfl
@[simp] theorem State.zeroCounters_cfg (s : State) : (s.zeroCounters).cfg = s.cfg := rfl
@[simp] theorem State.zeroCounters_params (s : State) : (s.zeroCounters).params = s.params := rfl
@[simp] theorem State.zeroCounters_engineLog (s : State) : (s.zeroCounters).engineLog = s.engineLog := rfl
@[simp] theorem State.zeroCounters_result (s : State) : (s.zeroCounters).result = s.result := rfl
@[simp] theorem State.zeroCounters_cause (s : State) : (s.zeroCounters).cause = s.cause := rfl
@[simp] theorem State.zeroCounters_requests (s : State) : (s.zeroCounters).requests = s.requests := rfl
@[simp] theorem State.zeroCounters_issuer (s : State) : (s.zeroCounters).issuer = s.issuer := rfl
@[simp] theorem State.zeroCounters_arrivals (s : State) : (s.zeroCounters).arrivals = s.arrivals := rfl
@[simp] theorem State.zeroCounters_oracle (s : State) : (s.zeroCounters).oracle = s.oracle := rfl

/-! ### countSent -/

@[simp] theorem State.countSent_rxq (s : State) : (s.countSent).rxq = s.rxq := rfl
@[simp] theorem State.countSent_txq (s : State) : (s.countSent).txq = s.txq := rfl
@[simp] theorem State.countSent_runState (s : State) : (s.countSent).runState = s.runState := rfl
@[simp] theorem State.countSent_engine (s : State) : (s.countSent).engine = s.engine := rfl
@[simp] theorem State.countSent_started (s : State) : (s.countSent).started = s.started := rfl
@[simp] theorem State.countSent_framesSent (s : State) : (s.countSent).framesSent = s.framesSent + 1 := rfl
@[simp] theorem State.countSent_framesReceived (s : State) : (s.countSent).framesReceived = s.framesReceived := rfl
@[simp] theorem State.countSent_sendErrors (s : State) : (s.countSent).sendErrors = s.sendErrors := rfl
@[simp] theorem State.countSent_busErrors (s : State) : (s.countSent).busErrors = s.busErrors := rfl
@[simp] theorem State.countSent_cfg (s : State) : (s.countSent).cfg = s.cfg := rfl
@[simp] theorem State.countSent_params (s : State) : (s.countSent).params = s.params := rfl
@[simp] theorem State.countSent_engineLog (s : State) : (s.countSent).engineLog = s.engineLog := rfl
@[simp] theorem State.countSent_result (s : State) : (s.countSent).result = s.result := rfl
@[simp] theorem State.countSent_cause (s : State) : (s.countSent).cause = s.cause := rfl
@[simp] theorem State.countSent_requests (s : State) : (s.countSent).requests = s.requests := rfl
@[simp] theorem State.countSent_issuer (s : State) : (s.countSent).issuer = s.issuer := rfl
@[simp] theorem State.countSent_arrivals (s : State) : (s.countSent).arrivals = s.arrivals := rfl
@[simp] theorem State.countSent_oracle (s : State) : (s.countSent).oracle = s.oracle := rfl

/-! ### countSendError -/

@[simp] theorem State.countSendError_rxq (s : State) : (s.countSendError).rxq = s.rxq := rfl
@[simp] theorem State.countSendError_txq (s : State) : (s.countSendError).txq = s.txq := rfl
@[simp] theorem State.countSendError_runState (s : State) : (s.countSendError).runState = s.runState := rfl
@[simp] theorem State.countSendError_engine (s : State) : (s.countSendError).engine = s.engine := rfl
@[simp] theorem State.countSendError_started (s : State) : (s.countSendError).started = s.started := rfl
@[simp] theorem State.countSendError_framesSent (s : State) : (s.countSendError).framesSent = s.framesSent := rfl
@[simp] theorem State.countSendError_framesReceived (s : State) : (s.countSendError).framesReceived = s.framesReceived := rfl
@[simp] theorem State.countSendError_sendErrors (s : State) : (s.countSendError).sendErrors = s.sendErrors + 1 := rfl
@[simp] theorem State.countSendError_busErrors (s : State) : (s.countSendError).busErrors = s.busErrors := rfl
@[simp] theorem State.countSendError_cfg (s : State) : (s.countSendError).cfg = s.cfg := rfl
@[simp] theorem State.countSendError_params (s : State) : (s.countSendError).params = s.params := rfl
@[simp] theorem State.countSendError_engineLog (s : State) : (s.countSendError).engineLog = s.engineLog := rfl
@[simp] theorem State.countSendError_result (s : State) : (s.countSendError).result = s.result := rfl
@[simp] theorem State.countSendError_cause (s : State) : (s.countSendError).cause = s.cause := rfl
@[simp] theorem State.countSendError_requests (s : State) : (s.countSendError).requests = s.requests := rfl
@[simp] theorem State.countSendError_issuer (s : State) : (s.countSendError).issuer = s.issuer := rfl
@[simp] theorem State.countSendError_arrivals (s : State) : (s.countSendError).arrivals = s.arrivals := rfl
@[simp] theorem State.countSendError_oracle (s : State) : (s.countSendError).oracle = s.oracle := rfl

/-! ### countReceived -/

@[simp] theorem State.countReceived_rxq (s : State) : (s.countReceived).rxq = s.rxq := rfl
@[simp] theorem State.countReceived_txq (s : State) : (s.countReceived).txq = s.txq := rfl
@[simp] theorem State.countReceived_runState (s : State) : (s.countReceived).runState = s.runState := rfl
@[simp] theorem State.countReceived_engine (s : State) : (s.countReceived).engine = s.engine := rfl
@[simp] theorem State.countReceived_started (s : State) : (s.countReceived).started = s.started := rfl
@[simp] theorem State.countReceived_framesSent (s : State) : (s.countReceived).framesSent = s.framesSent := rfl
@[simp] theorem State.countReceived_framesReceived (s : State) : (s.countReceived).framesReceived = s.framesReceived + 1 := rfl
@[simp] theorem State.countReceived_sendErrors (s : State) : (s.countReceived).sendErrors = s.sendErrors := rfl
@[simp] theorem State.countReceived_busErrors (s : State) : (s.countReceived).busErrors = s.busErrors := rfl
@[simp] theorem State.countReceived_cfg (s : State) : (s.countReceived).cfg = s.cfg := rfl
@[simp] theorem State.countReceived_params (s : State) : (s.countReceived).params = s.params := rfl
@[simp] theorem State.countReceived_engineLog (s : State) : (s.countReceived).engineLog = s.engineLog := rfl
@[simp] theorem State.countReceived_result (s : State) : (s.countReceived).result = s.result := rfl
@[simp] theorem State.countReceived_cause (s : State) : (s.countReceived).cause = s.cause := rfl
@[simp] theorem State.countReceived_requests (s : State) : (s.countReceived).requests = s.requests := rfl
@[simp] theorem State.countReceived_issuer (s : State) : (s.countReceived).issuer = s.issuer := rfl
@[simp] theorem State.countReceived_arrivals (s : State) : (s.countReceived).arrivals = s.arrivals := rfl
@[simp] theorem State.countReceived_oracle (s : State) : (s.countReceived).oracle = s.oracle := rfl

/-! ### drawPick -/

@[simp] theorem State.drawPick_rxq (s : State) : (s.drawPick.2).rxq = s.rxq := by unfold State.drawPick; (repeat' split) <;> rfl
@[simp] theorem State.drawPick_txq (s : State) : (s.drawPick.2).txq = s.txq := by unfold State.drawPick; (repeat' split) <;> rfl
@[simp] theorem State.drawPick_runState (s : State) : (s.drawPick.2).runState = s.runState := by unfold State.drawPick; (repeat' split) <;> rfl
@[simp] theorem State.drawPick_engine (s : State) : (s.drawPick.2).engine = s.engine := by unfold State.drawPick; (repeat' split) <;> rfl
@[simp] theorem State.drawPick_started (s : State) : (s.drawPick.2).started = s.started := by unfold State.drawPick; (repeat' split) <;> rfl
@[simp] theorem State.drawPick_framesSent (s : State) : (s.drawPick.2).framesSent = s.framesSent := by unfold State.drawPick; (repeat' split) <;> rfl
@[simp] theorem State.drawPick_framesReceived (s : State) : (s.drawPick.2).framesReceived = s.framesReceived := by unfold State.drawPick; (repeat' split) <;> rfl
@[simp] theorem State.drawPick_sendErrors (s : State) : (s.drawPick.2).sendErrors = s.sendErrors := by unfold State.drawPick; (repeat' split) <;> rfl
@[simp] theorem State.drawPick_busErrors (s : State) : (s.drawPick.2).busErrors = s.busErrors := by unfold State.drawPick; (repeat' split) <;> rfl
@[simp] theorem State.drawPick_cfg (s : State) : (s.drawPick.2).cfg = s.cfg := by unfold State.drawPick; (repeat' split) <;> rfl
@[simp] theorem State.drawPick_params (s : State) : (s.drawPick.2).params = s.params := by unfold State.drawPick; (repeat' split) <;> rfl
@[simp] theorem State.drawPick_engineLog (s : State) : (s.drawPick.2).engineLog = s.engineLog := by unfold State.drawPick; (repeat' split) <;> rfl
@[simp] theorem State.drawPick_result (s : State) : (s.drawPick.2).result = s.result := by unfold State.drawPick; (repeat' split) <;> rfl
@[simp] theorem State.drawPick_cause (s : State) : (s.drawPick.2).cause = s.cause := by unfold State.drawPick; (repeat' split) <;> rfl
@[simp] theorem State.drawPick_requests (s : State) : (s.drawPick.2).requests = s.requests := by unfold State.drawPick; (repeat' split) <;> rfl
@[simp] theorem State.drawPick_issuer (s : State) : (s.drawPick.2).issuer = s.issuer := by unfold State.drawPick; (repeat' split) <;> rfl
@[simp] theorem State.drawPick_arrivals (s : State) : (s.drawPick.2).arrivals = s.arrivals := by unfold State.drawPick; (repeat' split) <;> rfl

/-! ### askEngine -/

@[simp] theorem State.askEngine_rxq (s : State) : (s.askEngine.2).rxq = s.rxq := by unfold State.askEngine; split <;> rfl
@[simp] theorem State.askEngine_txq (s : State) : (s.askEngine.2).txq = s.txq := by unfold State.askEngine; split <;> rfl
@[simp] theorem State.askEngine_runState (s : State) : (s.askEngine.2).runState = s.runState := by unfold State.askEngine; split <;> rfl
@[simp] theorem State.askEngine_engine (s : State) : (s.askEngine.2).engine = s.engine := by unfold State.askEngine; split <;> rfl
@[simp] theorem State.askEngine_started (s : State) : (s.askEngine.2).started = s.started := by unfold State.askEngine; split <;> rfl
@[simp] theorem State.askEngine_framesSent (s : State) : (s.askEngine.2).framesSent = s.framesSent := by unfold State.askEngine; split <;> rfl
@[simp] theorem State.askEngine_framesReceived (s : State) : (s.askEngine.2).framesReceived = s.framesReceived := by unfold State.askEngine; split <;> rfl
@[simp] theorem State.askEngine_sendErrors (s : State) : (s.askEngine.2).sendErrors = s.sendErrors := by unfold State.askEngine; split <;> rfl
@[simp] theorem State.askEngine_busErrors (s : State) : (s.askEngine.2).busErrors = s.busErrors := by unfold State.askEngine; split <;> rfl
@[simp] theorem State.askEngine_cfg (s : State) : (s.askEngine.2).cfg = s.cfg := by unfold State.askEngine; split <;> rfl
@[simp] theorem State.askEngine_params (s : State) : (s.askEngine.2).params = s.params := by unfold State.askEngine; split <;> rfl
@[simp] theorem State.askEngine_engineLog (s : State) : (s.askEngine.2).engineLog = s.engineLog := by unfold State.askEngine; split <;> rfl
@[simp] theorem State.askEngine_result (s : State) : (s.askEngine.2).result = s.result := by unfold State.askEngine; split <;> rfl
@[simp] theorem State.askEngine_cause (s : State) : (s.askEngine.2).cause = s.cause := by unfold State.askEngine; split <;> rfl
@[simp] theorem State.askEngine_requests (s : State) : (s.askEngine.2).requests = s.requests := by unfold State.askEngine; split <;> rfl
@[simp] theorem State.askEngine_issuer (s : State) : (s.askEngine.2).issuer = s.issuer := by unfold State.askEngine; split <;> rfl
@[simp] theorem State.askEngine_arrivals (s : State) : (s.askEngine.2).arrivals = s.arrivals := by unfold State.askEngine; split <;> rfl

/-! ### The queue an operation names -/

@[simp] theorem State.setQueue_rx_rxq (s : State) (q : Queue) : (s.setQueue .rx q).rxq = q := rfl
@[simp] theorem State.setQueue_rx_txq (s : State) (q : Queue) : (s.setQueue .rx q).txq = s.txq := rfl
@[simp] theorem State.setQueue_tx_txq (s : State) (q : Queue) : (s.setQueue .tx q).txq = q := rfl
@[simp] theorem State.setQueue_tx_rxq (s : State) (q : Queue) : (s.setQueue .tx q).rxq = s.rxq := rfl
@[simp] theorem State.queue_rx (s : State) : s.queue .rx = s.rxq := rfl
@[simp] theorem State.queue_tx (s : State) : s.queue .tx = s.txq := rfl
@[simp] theorem State.queue_setQueue (s : State) (sel : QueueSel) (q : Queue) : (s.setQueue sel q).queue sel = q := by
  cases sel <;> rfl
@[simp] theorem State.setQueue_queue (s : State) (sel : QueueSel) : s.setQueue sel (s.queue sel) = s := by
  cases sel <;> rfl
@[simp] theorem State.drawPick_queue (s : State) (sel : QueueSel) : s.drawPick.2.queue sel = s.queue sel := by
  cases sel <;> simp

/-! ### The free choices -/

/-- Without SYNC_LAG no draw is used (rule R60). -/
theorem State.drawPick_exact (s : State) (h : s.params.syncLag = false) : s.drawPick = (0, s) := by
  simp [State.drawPick, h]

/-- A draw touches only the draws of the oracle. -/
theorem State.drawPick_oracle (s : State) :
    s.drawPick.2.oracle.answers = s.oracle.answers ∧ s.drawPick.2.oracle.asked = s.oracle.asked ∧
      s.drawPick.2.oracle.tails = s.oracle.tails := by
  unfold State.drawPick; (repeat' split) <;> simp

/-- A draw changes the state's oracle and nothing else. -/
theorem State.drawPick_eq (s : State) : s.drawPick.2 = { s with oracle := s.drawPick.2.oracle } := by
  unfold State.drawPick; (repeat' split) <;> rfl

/-- An answer of the Engine changes the state's oracle and nothing else. -/
theorem State.askEngine_eq (s : State) : s.askEngine.2 = { s with oracle := s.askEngine.2.oracle } := by
  unfold State.askEngine; split <;> rfl

end Sys2Proof.Machine
end

