-- ==== Sys2Proof/Laws/Ops.lean ====
section
/-! SUPPORT. One lemma per shared operation: everything it can do. -/
namespace Sys2Proof.Machine

/-! ### Going on, or stopping -/

@[simp] theorem andThen_next {α β : Type} (a : α) (k : α → Res β) : andThen (.next a) k = k a := rfl
@[simp] theorem andThen_fault {α β : Type} (e : Fault) (k : α → Res β) : andThen (.fault e) k = .fault e := rfl
@[simp] theorem andThen_refused {α β : Type} (r : Refusal) (k : α → Res β) : andThen (.refused r) k = .refused r := rfl

/-- A composition answers exactly when both parts do. -/
theorem andThen_eq_next {α β : Type} {o : Res α} {k : α → Res β} {b : β} :
    andThen o k = .next b ↔ ∃ a, o = .next a ∧ k a = .next b := by
  cases o <;> simp

theorem andThen_assoc {α β γ : Type} (o : Res α) (k : α → Res β) (l : β → Res γ) :
    andThen (andThen o k) l = andThen o fun a => andThen (k a) l := by
  cases o <;> rfl

/-! ### Permission and Transport state -/

/-- An operation that answers may be issued by its issuer (rule R165). -/
theorem withContext_eq_next {i : Instr} {s : State} {k : Res State} {t : State} :
    withContext i s k = .next t ↔ permitted s.issuer i = true ∧ k = .next t := by
  unfold withContext; split <;> simp_all

theorem whenRunning_eq_next {s : State} {k : Res State} {t : State} :
    whenRunning s k = .next t ↔ s.runState = .running ∧ k = .next t := by
  unfold whenRunning; split <;> simp_all

theorem whenNotifiable_eq_next {s : State} {k : Res State} {t : State} :
    whenNotifiable s k = .next t ↔ s.runState = .running ∧ k = .next t := by
  unfold whenNotifiable; split <;> simp_all

/-! ### The copies of rule R61 -/

theorem advanceCopy_ge (pick seen actual : Nat) : seen ≤ advanceCopy pick seen actual := by simp [advanceCopy]

theorem advanceCopy_le (pick : Nat) {seen actual : Nat} (h : seen ≤ actual) : advanceCopy pick seen actual ≤ actual := by
  have : pick % (actual - seen + 1) < actual - seen + 1 := Nat.mod_lt pick (Nat.succ_pos _)
  unfold advanceCopy; omega

@[simp] theorem Queue.refreshConsumer_exact (pick : Nat) (q : Queue) : q.refreshConsumer false pick = q := rfl
@[simp] theorem Queue.refreshProducer_exact (pick : Nat) (q : Queue) : q.refreshProducer false pick = q := rfl

/-- Refreshing the consumer's copy changes the copy and nothing else. -/
theorem Queue.refreshConsumer_eq (lag : Bool) (pick : Nat) (q : Queue) :
    q.refreshConsumer lag pick = { q with pushesSeen := (q.refreshConsumer lag pick).pushesSeen } := by
  cases lag <;> rfl

/-- Refreshing the producer's copy changes the copy and nothing else. -/
theorem Queue.refreshProducer_eq (lag : Bool) (pick : Nat) (q : Queue) :
    q.refreshProducer lag pick = { q with popsSeen := (q.refreshProducer lag pick).popsSeen } := by
  cases lag <;> rfl

/-- Drawing a side's copy anew changes the two copies at most. -/
theorem Queue.refreshTo_eq (side : Side) (lag : Bool) (pick : Nat) (q : Queue) :
    q.refreshTo side lag pick = { q with pushesSeen := (q.refreshTo side lag pick).pushesSeen
                                         popsSeen := (q.refreshTo side lag pick).popsSeen } := by
  cases side <;> cases lag <;> rfl

@[simp] theorem Queue.refreshTo_exact (side : Side) (pick : Nat) (q : Queue) : q.refreshTo side false pick = q := by
  cases side <;> rfl

@[simp] theorem Queue.emptyTo_exact (side : Side) (q : Queue) : q.emptyTo side false = (q.count == 0) := by
  cases side <;> rfl

@[simp] theorem Queue.fullTo_exact (side : Side) (q : Queue) : q.fullTo side false = (q.count == q.cap) := by
  cases side <;> rfl

/-- POLL asks for emptiness as the consumer, of either queue: its IS_EMPTY is TRY_POP's own test (rule R61). -/
@[simp] theorem askingSide_empty_poll (sel : QueueSel) : askingSide .consumer .poll sel = .consumer := by cases sel <;> rfl

/-! ### TRY_PUSH and TRY_POP -/

/-- Everything a TRY_PUSH can do (rules R61, R100). -/
theorem Queue.tryPush_cases {lag : Bool} {pick : Nat} {q : Queue} {f : FrameRecord} {b : Bool} {p : Queue}
    (h : q.tryPush lag pick f = .next (b, p)) :
    (b = false ∧ (q.refreshProducer lag pick).fullFlag lag = true ∧ p = (q.refreshProducer lag pick).afterDrop) ∨
      (b = true ∧ (q.refreshProducer lag pick).fullFlag lag = false ∧ q.wptr < q.cap ∧
        p = (q.refreshProducer lag pick).afterPush (q.slots.write q.wptr f)) := by
  unfold Queue.tryPush at h
  split at h
  · rename_i hf; simp only [Host.Outcome.next.injEq, Prod.mk.injEq] at h; exact .inl ⟨h.1.symm, hf, h.2.symm⟩
  · rename_i hf
    obtain ⟨m, hm, h⟩ := andThen_eq_next.1 h
    obtain ⟨hlt, rfl⟩ := memWrite_eq_next.1 hm
    simp only [Host.Outcome.next.injEq, Prod.mk.injEq] at h
    exact .inr ⟨h.1.symm, by simpa using hf, hlt, h.2.symm⟩

/-- Everything a TRY_POP can do (rules R61, R101). -/
theorem Queue.tryPop_cases {sel : QueueSel} {lag : Bool} {pick : Nat} {q : Queue} {r : Option FrameRecord} {p : Queue}
    (h : q.tryPop sel lag pick = .next (r, p)) :
    (r = none ∧ (q.refreshConsumer lag pick).emptyFlag lag = true ∧ p = q.refreshConsumer lag pick) ∨
      (r = some (q.slotValue sel q.rptr) ∧ (q.refreshConsumer lag pick).emptyFlag lag = false ∧ q.rptr < q.cap ∧
        p = (q.refreshConsumer lag pick).afterPop) := by
  unfold Queue.tryPop at h
  split at h
  · rename_i hf; simp only [Host.Outcome.next.injEq, Prod.mk.injEq] at h; exact .inl ⟨h.1.symm, hf, h.2.symm⟩
  · rename_i hf
    obtain ⟨f, hm, h⟩ := andThen_eq_next.1 h
    obtain ⟨hlt, rfl⟩ := memRead_eq_next.1 hm
    simp only [Host.Outcome.next.injEq, Prod.mk.injEq] at h
    exact .inr ⟨h.1.symm, by simpa using hf, hlt, h.2.symm⟩

/-- A TRY_PUSH of the state is one of its queue. -/
theorem State.tryPush_cases {s : State} {sel : QueueSel} {f : FrameRecord} {b : Bool} {t : State}
    (h : s.tryPush sel f = .next (b, t)) :
    ∃ p, (s.queue sel).tryPush s.params.syncLag s.drawPick.1 f = .next (b, p) ∧ t = s.drawPick.2.setQueue sel p := by
  obtain ⟨⟨b', p⟩, hp, h⟩ := andThen_eq_next.1 h
  simp only [Host.Outcome.next.injEq, Prod.mk.injEq] at h
  obtain ⟨rfl, rfl⟩ := h
  exact ⟨p, hp, rfl⟩

/-- A TRY_POP of the state is one of its queue. -/
theorem State.tryPop_cases {s : State} {sel : QueueSel} {r : Option FrameRecord} {t : State}
    (h : s.tryPop sel = .next (r, t)) :
    ∃ p, (s.queue sel).tryPop sel s.params.syncLag s.drawPick.1 = .next (r, p) ∧ t = s.drawPick.2.setQueue sel p := by
  obtain ⟨⟨r', p⟩, hp, h⟩ := andThen_eq_next.1 h
  simp only [Host.Outcome.next.injEq, Prod.mk.injEq] at h
  obtain ⟨rfl, rfl⟩ := h
  exact ⟨p, hp, rfl⟩

/-! ### The Engine -/

/-- The Engine's answer does not depend on the free tail bytes. -/
theorem State.askEngine_tails (s : State) (n : Nat) :
    State.askEngine { s with oracle := { s.oracle with tails := n } } =
      (s.askEngine.1, { s.askEngine.2 with oracle := { s.askEngine.2.oracle with tails := n } }) := by
  unfold State.askEngine; cases s.oracle.answers <;> rfl

/-- An answer of the Engine moves neither the draws nor the tail bytes. -/
theorem State.askEngine_oracle (s : State) :
    s.askEngine.2.oracle.picks = s.oracle.picks ∧ s.askEngine.2.oracle.picked = s.oracle.picked ∧
      s.askEngine.2.oracle.tails = s.oracle.tails := by
  unfold State.askEngine; split <;> exact ⟨rfl, rfl, rfl⟩

/-- The message a submission of `f` offers the Engine. -/
def State.offered (s : State) (f : FrameRecord) : WireMessage :=
  encodeFrame (Config.tailByte s.oracle.source s.oracle.tails) f

/-- The oracle after a submission. -/
def State.oracleAfterSubmit (s : State) : Oracle := { s.askEngine.2.oracle with tails := s.oracle.tails + 1 }

/-- Everything a submission does (rule R136): the Engine is asked once, an accepted message is appended to the log. -/
theorem State.submit_eq {s : State} {f : FrameRecord} (h : f.lengthValid = true) :
    s.submit f = .next (s.askEngine.1,
      { s with oracle := s.oracleAfterSubmit
               engineLog := s.engineLog ++ if s.askEngine.1 then [s.offered f] else [] }) := by
  unfold State.submit State.encodeOp
  simp only [h, if_true, andThen_next, State.askEngine_tails]
  have e := s.askEngine_eq
  cases hb : s.askEngine.1 <;> simp only [if_true, Bool.false_eq_true, if_false, List.append_nil] <;> rw [e] <;> rfl

/-- A submission of a record that is too long is refused (rules R90, R122 (d)). -/
theorem State.submit_refused {s : State} {f : FrameRecord} (h : f.lengthValid = false) :
    s.submit f = .refused (.misuse .encodeLength) := by
  simp [State.submit, State.encodeOp, h]

/-- A submission that answers is the one of `submit_eq`. -/
theorem State.submit_cases {s : State} {f : FrameRecord} {r : Bool × State} (h : s.submit f = .next r) :
    f.lengthValid = true ∧ r = (s.askEngine.1,
      { s with oracle := s.oracleAfterSubmit
               engineLog := s.engineLog ++ if s.askEngine.1 then [s.offered f] else [] }) := by
  cases hl : f.lengthValid with
  | false => rw [State.submit_refused hl] at h; simp at h
  | true =>
    rw [State.submit_eq hl] at h
    exact ⟨rfl, (Host.Outcome.next.inj h).symm⟩

/-! ### Notifications and preemption -/

/-- What notifications can change (rule R39): RXQ, of which neither the capacity nor the read pointer, the bus error
counter, and the model's own arrivals and draws. -/
def State.NotifiedTo (s t : State) : Prop :=
  ∃ (q : Queue) (n : Nat) (a : List Arrival) (ps : List Nat) (k : Nat),
    t = { s with rxq := q, busErrors := n, arrivals := a, oracle := { s.oracle with picks := ps, picked := k } } ∧
      q.cap = s.rxq.cap ∧ q.rptr = s.rxq.rptr

theorem State.NotifiedTo.refl (s : State) : s.NotifiedTo s := ⟨_, _, _, _, _, rfl, rfl, rfl⟩

theorem State.NotifiedTo.trans {s t u : State} (h : s.NotifiedTo t) (h' : t.NotifiedTo u) : s.NotifiedTo u := by
  obtain ⟨q, n, a, ps, k, rfl, hc, hr⟩ := h
  obtain ⟨q', n', a', ps', k', rfl, hc', hr'⟩ := h'
  exact ⟨q', n', a', ps', k', rfl, hc'.trans hc, hr'.trans hr⟩

/-- A draw counts as nothing but a draw. -/
theorem State.drawPick_notifiedTo (s : State) : s.NotifiedTo s.drawPick.2 := by
  unfold State.drawPick; (repeat' split) <;> exact ⟨_, _, _, _, _, rfl, rfl, rfl⟩

/-- A TRY_PUSH moves neither the capacity nor the read pointer (rule R24). -/
theorem Queue.tryPush_keeps {lag : Bool} {pick : Nat} {q : Queue} {f : FrameRecord} {b : Bool} {p : Queue}
    (h : q.tryPush lag pick f = .next (b, p)) : p.cap = q.cap ∧ p.rptr = q.rptr := by
  have e := q.refreshProducer_eq lag pick
  rcases Queue.tryPush_cases h with ⟨-, -, rfl⟩ | ⟨-, -, -, rfl⟩ <;> rw [e] <;> exact ⟨rfl, rfl⟩

/-- A TRY_POP moves neither the capacity, the slots, the write pointer nor the counters (rules R24, R101). -/
theorem Queue.tryPop_keeps {sel : QueueSel} {lag : Bool} {pick : Nat} {q : Queue} {r : Option FrameRecord} {p : Queue}
    (h : q.tryPop sel lag pick = .next (r, p)) :
    p.cap = q.cap ∧ p.slots = q.slots ∧ p.wptr = q.wptr ∧ p.pushed = q.pushed ∧ p.dropped = q.dropped := by
  have e := q.refreshConsumer_eq lag pick
  rcases Queue.tryPop_cases h with ⟨-, -, rfl⟩ | ⟨-, -, -, rfl⟩ <;> rw [e] <;> exact ⟨rfl, rfl, rfl, rfl, rfl⟩

/-- One notification changes only what notifications can change. -/
theorem State.notify_notifiedTo {s : State} {n : Notification} {c : Option ErrorClass} {t : State}
    (h : s.notify n = .next (c, t)) : s.NotifiedTo t := by
  cases n with
  | rxComplete w =>
    obtain ⟨⟨b, u⟩, hu, h⟩ := andThen_eq_next.1 h
    obtain ⟨p, hp, rfl⟩ := State.tryPush_cases hu
    simp only [Host.Outcome.next.injEq, Prod.mk.injEq] at h
    obtain ⟨-, rfl⟩ := h
    obtain ⟨hc, hr⟩ := Queue.tryPush_keeps hp
    exact s.drawPick_notifiedTo.trans ⟨p, _, _, _, _, rfl, by simpa using hc, by simpa using hr⟩
  | txComplete w => simp [State.notify] at h; obtain ⟨-, rfl⟩ := h; exact .refl s
  | error w => simp [State.notify] at h; obtain ⟨-, rfl⟩ := h; exact ⟨_, _, _, _, _, rfl, rfl, rfl⟩

/-- The notifications of one preemption point change only what notifications can change. -/
theorem State.serve_notifiedTo {l : List Arrival} {s t : State} (h : s.serve l = .next t) : s.NotifiedTo t := by
  induction l generalizing s with
  | nil => simp only [State.serve, Host.Outcome.next.injEq] at h; exact h ▸ ⟨_, _, _, _, _, rfl, rfl, rfl⟩
  | cons a rest ih =>
    unfold State.serve at h
    split at h
    · obtain ⟨⟨c, u⟩, hu, h⟩ := andThen_eq_next.1 h
      exact (State.notify_notifiedTo hu).trans (ih h)
    · simp only [Host.Outcome.next.injEq] at h; exact h ▸ ⟨_, _, _, _, _, rfl, rfl, rfl⟩

/-- A preemption point changes only what notifications can change (rules R39, R161). -/
theorem State.preempt_notifiedTo {s t : State} (h : s.preempt = .next t) : s.NotifiedTo t := by
  unfold State.preempt at h
  split at h
  · exact State.serve_notifiedTo h
  · simp only [Host.Outcome.next.injEq] at h; exact h ▸ .refl s

/-- While the Engine is not started no notification runs (rules R136, R158). -/
theorem State.preempt_stopped {s : State} (h : s.started = none) : s.preempt = .next s := by
  simp [State.preempt, h]

/-- With no notification coming a preemption point changes nothing. -/
theorem State.preempt_quiet {s : State} (h : s.arrivals = []) : s.preempt = .next s := by
  unfold State.preempt
  split
  · rw [h]; simp only [State.serve, Host.Outcome.next.injEq]; rw [← h]
  · rfl

end Sys2Proof.Machine
end

