-- ==== Sys2Proof/Laws/PerInstr.lean ====
section
/-! SUPPORT. Statements made per instruction. Family TableRow: the word `encode` gives has the fixed bits of the instruction's
row of the opcode table, match under mask. -/
namespace Sys2Proof.Laws

/-- The match and mask of a row, for a command word or a wire id word (opcode_table.json). -/
inductive RowBits where
  | command (fixed mask : BitVec 6)
  | wireId (fixed mask : Word)

/-- The opcode table's match and mask, row by row. -/
def rowBits : Instr → RowBits
  | .encode _ => .command 0x00 0x3F
  | .decode _ => .command 0x02 0x3F
  | .tryPush _ _ => .command 0x04 0x3E
  | .tryPop _ => .command 0x06 0x3E
  | .isEmpty _ => .command 0x08 0x3E
  | .isFull _ => .command 0x0A 0x3E
  | .clear _ => .command 0x0C 0x3E
  | .rdPushed _ => .command 0x0E 0x3E
  | .rdDropped _ => .command 0x10 0x3E
  | .beginRun => .command 0x12 0x3F
  | .available => .command 0x14 0x3F
  | .getNextFrame => .command 0x16 0x3F
  | .send _ => .command 0x18 0x3F
  | .reset => .command 0x1A 0x3F
  | .stop => .command 0x1C 0x3F
  | .receivedCount => .command 0x1E 0x3F
  | .sentCount => .command 0x20 0x3F
  | .sendErrorCount => .command 0x22 0x3F
  | .notifyRx _ => .command 0x24 0x3F
  | .notifyTx _ => .command 0x26 0x3F
  | .notifyErr _ => .command 0x28 0x3F
  | .wireidStdData _ => .wireId 0x00000000 0xC0000000
  | .wireidStdRemote _ => .wireId 0x40000000 0xC0000000
  | .wireidExtData _ => .wireId 0x80000000 0xC0000000
  | .wireidExtRemote _ => .wireId 0xC0000000 0xC0000000

/-- A port word has the fixed bits of a row. -/
def hasRowBits : PortWord → RowBits → Prop
  | .command cmd _, .command fixed mask => cmd &&& mask = fixed
  | .wireId id, .wireId fixed mask => id &&& mask = fixed
  | .command _ _, .wireId _ _ => False
  | .wireId _, .command _ _ => False

/-- The encoding of the instruction has its row's fixed bits. -/
def TableRow.Statement (i : Instr) : Prop := hasRowBits (Sys2Proof.encode i) (rowBits i)

/-- The two flag bits of a wire id word stand above its 30 low bits. -/
theorem wireIdWord_class (ext rtr : Bool) (a : BitVec 30) :
    wireIdWord ext rtr a &&& 0xC0000000#32 =
      (if ext then 0x80000000#32 else 0) ||| (if rtr then 0x40000000#32 else 0) := by
  have hf : ∀ i, i < 32 → (0xC0000000#32).getLsbD i = (decide (i = 30) || decide (i = 31)) ∧
      (0x80000000#32).getLsbD i = decide (i = 31) ∧ (0x40000000#32).getLsbD i = decide (i = 30) := by decide
  apply BitVec.eq_of_getLsbD_eq
  intro i hi
  obtain ⟨hm, h31, h30⟩ := hf i hi
  rcases Nat.lt_or_ge i 30 with h | h
  · have n30 : i ≠ 30 := by omega
    have n31 : i ≠ 31 := by omega
    cases ext <;> cases rtr <;> simp [hm, h30, h31, n30, n31]
  · have : i = 30 ∨ i = 31 := by omega
    rcases this with rfl | rfl <;> cases ext <;> cases rtr <;> simp [wireIdWord, place]

theorem TableRow.encode (f : FrameRecord) : TableRow.Statement (.encode f) := rfl
theorem TableRow.decode (w : WireMessage) : TableRow.Statement (.decode w) := rfl
theorem TableRow.tryPush (q : QueueSel) (f : FrameRecord) : TableRow.Statement (.tryPush q f) := by cases q <;> rfl
theorem TableRow.tryPop (q : QueueSel) : TableRow.Statement (.tryPop q) := by cases q <;> rfl
theorem TableRow.isEmpty (q : QueueSel) : TableRow.Statement (.isEmpty q) := by cases q <;> rfl
theorem TableRow.isFull (q : QueueSel) : TableRow.Statement (.isFull q) := by cases q <;> rfl
theorem TableRow.clear (q : QueueSel) : TableRow.Statement (.clear q) := by cases q <;> rfl
theorem TableRow.rdPushed (q : QueueSel) : TableRow.Statement (.rdPushed q) := by cases q <;> rfl
theorem TableRow.rdDropped (q : QueueSel) : TableRow.Statement (.rdDropped q) := by cases q <;> rfl
theorem TableRow.beginRun : TableRow.Statement .beginRun := rfl
theorem TableRow.available : TableRow.Statement .available := rfl
theorem TableRow.getNextFrame : TableRow.Statement .getNextFrame := rfl
theorem TableRow.send (f : FrameRecord) : TableRow.Statement (.send f) := rfl
theorem TableRow.reset : TableRow.Statement .reset := rfl
theorem TableRow.stop : TableRow.Statement .stop := rfl
theorem TableRow.receivedCount : TableRow.Statement .receivedCount := rfl
theorem TableRow.sentCount : TableRow.Statement .sentCount := rfl
theorem TableRow.sendErrorCount : TableRow.Statement .sendErrorCount := rfl
theorem TableRow.notifyRx (w : WireMessage) : TableRow.Statement (.notifyRx w) := rfl
theorem TableRow.notifyTx (w : WireMessage) : TableRow.Statement (.notifyTx w) := rfl
theorem TableRow.notifyErr (w : WireMessage) : TableRow.Statement (.notifyErr w) := rfl
theorem TableRow.wireidStdData (a : BitVec 30) : TableRow.Statement (.wireidStdData a) := wireIdWord_class false false a
theorem TableRow.wireidStdRemote (a : BitVec 30) : TableRow.Statement (.wireidStdRemote a) := wireIdWord_class false true a
theorem TableRow.wireidExtData (a : BitVec 30) : TableRow.Statement (.wireidExtData a) := wireIdWord_class true false a
theorem TableRow.wireidExtRemote (a : BitVec 30) : TableRow.Statement (.wireidExtRemote a) := wireIdWord_class true true a

end Sys2Proof.Laws
end

