-- ==== Sys2Proof/Laws/Queue.lean ====
section
/-! SUPPORT. The queue invariant is kept by every queue operation, under which TRY_PUSH and TRY_POP always answer. -/
namespace Sys2Proof.Machine

theorem Queue.empty_inv (lag : Bool) {cap : Nat} (h : 1 ≤ cap) : (Queue.empty cap).Inv lag := by
  constructor <;> simp [Queue.empty, Memory.wf, h] <;> omega

theorem Queue.Inv.refreshConsumer {lag : Bool} {q : Queue} (pick : Nat) (h : q.Inv lag) :
    (q.refreshConsumer lag pick).Inv lag := by
  cases lag with
  | false => exact h
  | true =>
    have hge := advanceCopy_ge pick q.pushesSeen q.pushes
    have hle := advanceCopy_le pick h.pushesSeenLe
    have := h.consumerBehind rfl
    exact { h with
      pushesSeenLe := hle
      consumerBehind := fun _ => Nat.le_trans this hge }

theorem Queue.Inv.refreshProducer {lag : Bool} {q : Queue} (pick : Nat) (h : q.Inv lag) :
    (q.refreshProducer lag pick).Inv lag := by
  cases lag with
  | false => exact h
  | true =>
    have hge := advanceCopy_ge pick q.popsSeen q.pops
    have hle := advanceCopy_le pick h.popsSeenLe
    have := h.producerBehind rfl
    exact { h with
      popsSeenLe := hle
      producerBehind := fun _ => by
        show q.pushes ≤ advanceCopy pick q.popsSeen q.pops + q.cap
        omega }

/-- A flag read keeps the invariant, whichever side asks (rule R61). -/
theorem Queue.Inv.refreshTo {lag : Bool} {q : Queue} (side : Side) (pick : Nat) (h : q.Inv lag) :
    (q.refreshTo side lag pick).Inv lag := by
  cases side with
  | producer => exact h.refreshProducer pick
  | consumer => exact h.refreshConsumer pick

/-- Where the full flag of the producer's side is down, a slot is free (rules R27, R61). -/
theorem Queue.Inv.room {lag : Bool} {q : Queue} (h : q.Inv lag) (hf : q.fullFlag lag = false) : q.count < q.cap := by
  have h1 := h.countLe; have h2 := h.occupancy; have h3 := h.popsSeenLe
  cases lag with
  | false => simp [Queue.fullFlag] at hf; omega
  | true => have h4 := h.producerBehind rfl; simp [Queue.fullFlag] at hf; omega

/-- Where the empty flag of the consumer's side is down, a record is queued (rules R27, R61). -/
theorem Queue.Inv.queued {lag : Bool} {q : Queue} (h : q.Inv lag) (hf : q.emptyFlag lag = false) : 0 < q.count := by
  have h2 := h.occupancy; have h3 := h.pushesSeenLe
  cases lag with
  | false => simp [Queue.emptyFlag] at hf; omega
  | true => have h4 := h.consumerBehind rfl; simp [Queue.emptyFlag] at hf; omega

theorem Queue.Inv.afterDrop {lag : Bool} {q : Queue} (h : q.Inv lag) : q.afterDrop.Inv lag := { h with }

/-- The ring index `k` places after `r` differs from the one `n` places after it, for different places within one round. -/
theorem ring_index_ne {cap r k n : Nat} (hk : k < n) (hn : n < cap) : (r + k) % cap ≠ (r + n) % cap := by
  intro h
  have hd : (r + n - (r + k)) % cap = 0 := Nat.sub_mod_eq_zero_of_mod_eq h.symm
  have : r + n - (r + k) = n - k := by omega
  rw [this, Nat.mod_eq_of_lt (by omega)] at hd
  omega

theorem ring_advance (cap r n : Nat) : ((r + n) % cap + 1) % cap = (r + (n + 1)) % cap := by
  rw [Nat.mod_add_mod]; congr 1

theorem ring_advance_front (cap r n : Nat) : ((r + 1) % cap + n) % cap = (r + (n + 1)) % cap := by
  rw [Nat.mod_add_mod]; congr 1; omega

theorem Queue.Inv.afterPush {lag : Bool} {q : Queue} {f : FrameRecord} (h : q.Inv lag) (hf : f.wf = true)
    (hroom : q.fullFlag lag = false) : (q.afterPush (q.slots.write q.wptr f)).Inv lag := by
  have hr := h.room hroom
  have h0 := h.capPos; have h1 := h.wptrLt; have h2 := h.ring; have h3 := h.occupancy; have h4 := h.pushesSeenLe
  have h5 := h.popsSeenLe; have h6 := h.counterLaw
  constructor <;> simp only [Queue.afterPush, Queue.advance]
  · exact h0
  · exact Nat.mod_lt _ (by omega)
  · exact h.rptrLt
  · omega
  · rw [h2, ring_advance]
  · exact Memory.write_wf _ _ h.slotsWf
  · intro p hp
    rcases Memory.mem_write hp with rfl | hp
    · exact h1
    · exact h.slotsInRange p hp
  · intro p hp
    rcases Memory.mem_write hp with rfl | hp
    · exact hf
    · exact h.slotsRecords p hp
  · intro k hk
    by_cases hkc : k = q.count
    · subst hkc; rw [← h2]; simp
    · rw [Memory.read_write_other]
      · exact h.queuedWritten k (by omega)
      · rw [h2]; exact ring_index_ne (by omega) hr
  · omega
  · omega
  · exact h5
  · intro hl; have := h.consumerBehind hl; exact this
  · intro hl; subst hl
    have := h.producerBehind rfl
    simp [Queue.fullFlag] at hroom; omega
  · omega

theorem Queue.Inv.afterPop {lag : Bool} {q : Queue} (h : q.Inv lag) (hq : q.emptyFlag lag = false) :
    q.afterPop.Inv lag := by
  have hr := h.queued hq
  have h0 := h.capPos; have h2 := h.ring; have h3 := h.occupancy; have h4 := h.pushesSeenLe
  have h5 := h.popsSeenLe; have h6 := h.counterLaw; have h7 := h.countLe
  constructor <;> simp only [Queue.afterPop, Queue.advance]
  · exact h0
  · exact h.wptrLt
  · exact Nat.mod_lt _ (by omega)
  · omega
  · rw [h2, ring_advance_front]; congr 1; omega
  · exact h.slotsWf
  · exact h.slotsInRange
  · exact h.slotsRecords
  · intro k hk
    rw [ring_advance_front]
    exact h.queuedWritten (k + 1) (by omega)
  · omega
  · exact h4
  · omega
  · intro hl; subst hl
    have := h.consumerBehind rfl
    simp [Queue.emptyFlag] at hq; omega
  · exact h.producerBehind
  · omega

/-- CLEAR keeps the invariant (rule R104). -/
theorem Queue.Inv.clear {lag : Bool} {q : Queue} (h : q.Inv lag) : q.clear.Inv lag := by
  have h0 := h.capPos; have h6 := h.counterLaw
  constructor <;> simp only [Queue.clear]
  · exact h0
  · omega
  · omega
  · omega
  · simp
  · exact h.slotsWf
  · exact h.slotsInRange
  · exact h.slotsRecords
  · intro k hk; omega
  all_goals omega

/-- TRY_PUSH of a record keeps the invariant. -/
theorem Queue.Inv.tryPush {lag : Bool} {pick : Nat} {q : Queue} {f : FrameRecord} {b : Bool} {p : Queue}
    (h : q.Inv lag) (hf : f.wf = true) (hp : q.tryPush lag pick f = .next (b, p)) : p.Inv lag := by
  rcases Queue.tryPush_cases hp with ⟨-, -, rfl⟩ | ⟨-, hroom, -, rfl⟩
  · exact (h.refreshProducer pick).afterDrop
  · have e := q.refreshProducer_eq lag pick
    have := (h.refreshProducer pick).afterPush hf hroom
    rw [e] at this ⊢; exact this

/-- TRY_POP keeps the invariant. -/
theorem Queue.Inv.tryPop {sel : QueueSel} {lag : Bool} {pick : Nat} {q : Queue} {r : Option FrameRecord} {p : Queue}
    (h : q.Inv lag) (hp : q.tryPop sel lag pick = .next (r, p)) : p.Inv lag := by
  rcases Queue.tryPop_cases hp with ⟨-, -, rfl⟩ | ⟨-, hq, -, rfl⟩
  · exact h.refreshConsumer pick
  · exact (h.refreshConsumer pick).afterPop hq

/-- Inside the ranges of the invariant TRY_PUSH always answers (rules R52, R105). -/
theorem Queue.tryPush_answers (lag : Bool) (pick : Nat) {q : Queue} (f : FrameRecord) (h : q.wptr < q.cap) :
    ∃ b p, q.tryPush lag pick f = .next (b, p) := by
  unfold Queue.tryPush
  split
  · exact ⟨_, _, rfl⟩
  · simp [memWrite, h]

/-- Inside the ranges of the invariant TRY_POP always answers (rules R52, R105). -/
theorem Queue.tryPop_answers (sel : QueueSel) (lag : Bool) (pick : Nat) {q : Queue} (h : q.rptr < q.cap) :
    ∃ r p, q.tryPop sel lag pick = .next (r, p) := by
  unfold Queue.tryPop
  split
  · exact ⟨_, _, rfl⟩
  · simp [memRead, h]

/-- DECODE gives a Frame Record (rules R20, R91). -/
theorem decodeWire_wf (mask : Config.IdMask) (w : WireMessage) : (decodeWire mask w).wf = true := by
  simp only [decodeWire, FrameRecord.wf, WireMessage.payload, Len.bytes, clampLen, Config.maxLen, List.length_take,
    Vector.length_toList, beq_iff_eq]
  by_cases h : w.dlc.toNat ≤ 8
  · simp [h]
  · simp [h]; omega

/-- A notification keeps RXQ's invariant. -/
theorem State.notify_inv {s : State} {n : Notification} {c : Option ErrorClass} {t : State}
    (h : s.rxq.Inv s.params.syncLag) (hn : s.notify n = .next (c, t)) : t.rxq.Inv s.params.syncLag := by
  cases n with
  | rxComplete w =>
    obtain ⟨⟨b, u⟩, hu, hn⟩ := andThen_eq_next.1 hn
    obtain ⟨p, hp, rfl⟩ := State.tryPush_cases hu
    simp only [Host.Outcome.next.injEq, Prod.mk.injEq] at hn
    obtain ⟨-, rfl⟩ := hn
    exact h.tryPush (decodeWire_wf _ _) hp
  | txComplete w => simp [State.notify] at hn; obtain ⟨-, rfl⟩ := hn; exact h
  | error w => simp [State.notify] at hn; obtain ⟨-, rfl⟩ := hn; exact h

/-- A notification always answers while RXQ is in range. -/
theorem State.notify_answers {s : State} (n : Notification) (h : s.rxq.wptr < s.rxq.cap) :
    ∃ c t, s.notify n = .next (c, t) := by
  cases n with
  | rxComplete w =>
    obtain ⟨b, p, hp⟩ := Queue.tryPush_answers s.params.syncLag s.drawPick.1 (q := s.rxq)
      (decodeWire s.params.idMask w) h
    simp [State.notify, State.tryPush, hp]
  | txComplete w => exact ⟨_, _, rfl⟩
  | error w => exact ⟨_, _, rfl⟩

/-- No notification touches the parameters. -/
theorem State.NotifiedTo.params {s t : State} (h : s.NotifiedTo t) : t.params = s.params := by
  obtain ⟨q, n, a, ps, k, rfl, -, -⟩ := h; rfl

theorem State.serve_inv {l : List Arrival} {s t : State} (h : s.rxq.Inv s.params.syncLag)
    (hs : s.serve l = .next t) : t.rxq.Inv s.params.syncLag := by
  induction l generalizing s with
  | nil => simp only [State.serve, Host.Outcome.next.injEq] at hs; exact hs ▸ h
  | cons a rest ih =>
    unfold State.serve at hs
    split at hs
    · obtain ⟨⟨c, u⟩, hu, hs⟩ := andThen_eq_next.1 hs
      have hp := (State.notify_notifiedTo hu).params
      have := State.notify_inv h hu
      rw [← hp] at this ⊢
      exact ih this hs
    · simp only [Host.Outcome.next.injEq] at hs; exact hs ▸ h

theorem State.serve_answers (l : List Arrival) {s : State} (h : s.rxq.Inv s.params.syncLag) : ∃ t, s.serve l = .next t := by
  induction l generalizing s with
  | nil => exact ⟨_, rfl⟩
  | cons a rest ih =>
    unfold State.serve
    split
    · obtain ⟨c, u, hu⟩ := State.notify_answers a.event h.wptrLt
      have hp := (State.notify_notifiedTo hu).params
      have := State.notify_inv h hu
      rw [← hp] at this
      obtain ⟨t, ht⟩ := ih this
      exact ⟨t, by rw [hu]; exact ht⟩
    · exact ⟨_, rfl⟩

/-- A preemption point keeps RXQ's invariant. -/
theorem State.preempt_inv {s t : State} (h : s.rxq.Inv s.params.syncLag) (hs : s.preempt = .next t) :
    t.rxq.Inv s.params.syncLag := by
  unfold State.preempt at hs
  split at hs
  · exact State.serve_inv h hs
  · simp only [Host.Outcome.next.injEq] at hs; exact hs ▸ h

/-- A preemption point always answers while RXQ keeps its invariant (rule R162). -/
theorem State.preempt_answers {s : State} (h : s.rxq.Inv s.params.syncLag) : ∃ t, s.preempt = .next t := by
  unfold State.preempt
  split
  · exact State.serve_answers _ h
  · exact ⟨_, rfl⟩

/-- A successful push appends its record to the queued ones (rules R26, R100). -/
theorem Queue.contents_afterPush {lag : Bool} {q : Queue} (sel : QueueSel) (f : FrameRecord) (h : q.Inv lag)
    (hr : q.count < q.cap) : (q.afterPush (q.slots.write q.wptr f)).contents sel = q.contents sel ++ [f] := by
  simp only [Queue.contents, Queue.afterPush, List.range_succ, List.map_append, List.map_cons, List.map_nil]
  congr 1
  · apply List.map_congr_left
    intro k hk
    have hk : k < q.count := by simpa using hk
    simp only [Queue.slotValue]
    rw [Memory.read_write_other]
    rw [h.ring]; exact ring_index_ne hk hr
  · simp only [Queue.slotValue, ← h.ring, Memory.read_write_same, Option.getD_some]

/-- A successful pop takes the oldest of the queued records (rules R26, R101). -/
theorem Queue.contents_afterPop {lag : Bool} {q : Queue} (sel : QueueSel) (h : q.Inv lag) (hr : 0 < q.count) :
    q.contents sel = q.slotValue sel q.rptr :: q.afterPop.contents sel := by
  obtain ⟨n, hn⟩ : ∃ n, q.count = n + 1 := ⟨q.count - 1, by omega⟩
  simp only [Queue.contents, Queue.afterPop, hn, List.range_succ_eq_map, List.map_cons, List.map_map, Nat.add_sub_cancel]
  congr 1
  · have := h.rptrLt; simp [Nat.mod_eq_of_lt this]
  · apply List.map_congr_left
    intro k _
    simp only [Function.comp, Queue.advance, ring_advance_front]
    rfl

@[simp] theorem Queue.contents_refreshConsumer (sel : QueueSel) (lag : Bool) (pick : Nat) (q : Queue) :
    (q.refreshConsumer lag pick).contents sel = q.contents sel := by
  rw [q.refreshConsumer_eq lag pick]; rfl

@[simp] theorem Queue.contents_refreshProducer (sel : QueueSel) (lag : Bool) (pick : Nat) (q : Queue) :
    (q.refreshProducer lag pick).contents sel = q.contents sel := by
  rw [q.refreshProducer_eq lag pick]; rfl

/-- Undisturbed, a preemption point changes nothing. -/
theorem State.preempt_undisturbed {s : State} (h : s.Undisturbed) : s.preempt = .next s :=
  h.elim State.preempt_stopped State.preempt_quiet

@[simp] theorem Queue.contents_refreshTo (sel : QueueSel) (side : Side) (lag : Bool) (pick : Nat) (q : Queue) :
    (q.refreshTo side lag pick).contents sel = q.contents sel := by
  rw [q.refreshTo_eq side lag pick]; rfl

/-- An IS_EMPTY by POLL is the consumer's test, on a copy drawn as TRY_POP draws it (rules R61, R101). -/
theorem State.testEmpty_poll {s : State} (sel : QueueSel) (h : s.issuer = .poll) :
    s.testEmpty sel = (((s.queue sel).refreshConsumer s.params.syncLag s.drawPick.1).emptyFlag s.params.syncLag,
      s.drawPick.2.setQueue sel ((s.queue sel).refreshConsumer s.params.syncLag s.drawPick.1)) := by
  simp only [State.testEmpty, State.flagQueue, h, askingSide_empty_poll]; rfl

/-- Without SYNC_LAG a flag read changes nothing (rules R60, R65). -/
theorem State.testEmpty_exact {s : State} (sel : QueueSel) (h : s.params.syncLag = false) :
    s.testEmpty sel = ((s.queue sel).count == 0, s) := by
  simp [State.testEmpty, State.flagQueue, s.drawPick_exact h, h]

theorem State.testFull_exact {s : State} (sel : QueueSel) (h : s.params.syncLag = false) :
    s.testFull sel = ((s.queue sel).count == (s.queue sel).cap, s) := by
  simp [State.testFull, State.flagQueue, s.drawPick_exact h, h]

/-- Without SYNC_LAG a TRY_PUSH of the state is the queue's, no draw used (rule R60). -/
theorem State.tryPush_exact {s : State} (sel : QueueSel) (f : FrameRecord) (h : s.params.syncLag = false) :
    s.tryPush sel f = andThen ((s.queue sel).tryPush false 0 f) fun r => .next (r.1, s.setQueue sel r.2) := by
  simp [State.tryPush, s.drawPick_exact h, h]

theorem State.tryPop_exact {s : State} (sel : QueueSel) (h : s.params.syncLag = false) :
    s.tryPop sel = andThen ((s.queue sel).tryPop sel false 0) fun r => .next (r.1, s.setQueue sel r.2) := by
  simp [State.tryPop, s.drawPick_exact h, h]

end Sys2Proof.Machine
end

