-- ==== Sys2Proof/Machine/Ports.lean ====
section
/-! DEFINITION. The block as a netlist (rule R81): the codec's two combinational functions and one queue's ports. No other
definition rests on these. An output's payload bits beyond the length are any value (decision D7): they are the argument
`tail`, which is free (log entry 20). -/
namespace Sys2Proof.Machine

/-- `enc_in[101:0] -> enc_out[99:0]`; a length above 8 has no output (rule R90). -/
def encPort (tail : Nat → Byte) (v : BitVec 102) : Res (BitVec 100) :=
  if (unpackFrame v).lengthValid then .next (packWire (encodeFrame tail (unpackFrame v)))
  else .refused (.misuse .encodeLength)

/-- `dec_in[99:0] -> dec_out[101:0]` (rules R79, R91). -/
def decPort (tail : Nat → Byte) (mask : Config.IdMask) (v : BitVec 100) : BitVec 102 :=
  packFrameWith tail (decodeWire mask (unpackWire v))

/-- The inputs of a queue's ports (rule R81). -/
structure QueuePortsIn where
  pushReq : Bool
  pushFrame : BitVec 102
  popReq : Bool
  clear : Bool
  deriving DecidableEq, Repr

/-- The outputs of a queue's ports (rule R81). `pushOk` answers a `push_req` and `popValid` a `pop_req`: without the request
there is no answer and the output is absent, as `popFrame` is where `popValid` is 0 or absent. DESIGN CHOICE (log entry 20):
the spec gives those outputs no value there. -/
structure QueuePortsOut where
  pushOk : Option Bool
  full : Bool
  popValid : Option Bool
  popFrame : Option (BitVec 102)
  empty : Bool
  pushed : Nat
  dropped : Nat
  deriving DecidableEq, Repr

/-- What the write port outputs. -/
structure WritePortOut where
  ok : Option Bool
  full : Bool
  deriving DecidableEq, Repr

/-- What the read port outputs. -/
structure ReadPortOut where
  valid : Option Bool
  frame : Option (BitVec 102)
  empty : Bool
  deriving DecidableEq, Repr

/-- The write port: `full` is the test of the producer's side that a TRY_PUSH at this instant makes (rule R61), and
`push_req` is that TRY_PUSH (rule R100). -/
def pushPort (lag : Bool) (pick : Nat) (req : Bool) (v : BitVec 102) (q : Queue) : Res (WritePortOut × Queue) :=
  if req then
    andThen (q.tryPush lag pick (unpackFrame v)) fun r =>
      .next ({ ok := some r.1, full := (q.refreshProducer lag pick).fullFlag lag }, r.2)
  else
    .next ({ ok := none, full := (q.refreshProducer lag pick).fullFlag lag }, q.refreshProducer lag pick)

/-- The read port: `empty` is the test of the consumer's side that a TRY_POP at this instant makes (rule R61), and
`pop_req` is that TRY_POP (rule R101). -/
def popPort (sel : QueueSel) (lag : Bool) (pick : Nat) (tail : Nat → Byte) (req : Bool) (q : Queue) : Res (ReadPortOut × Queue) :=
  if req then
    andThen (q.tryPop sel lag pick) fun r =>
      .next ({ valid := some r.1.isSome, frame := r.1.map (packFrameWith tail)
               empty := (q.refreshConsumer lag pick).emptyFlag lag }, r.2)
  else
    .next ({ valid := none, frame := none, empty := (q.refreshConsumer lag pick).emptyFlag lag }, q.refreshConsumer lag pick)

/-- The outputs of one use, from those of the two ports; the counters are those `q` has before the use (DESIGN CHOICE, log
entry 20). -/
def portsOut (w : WritePortOut) (r : ReadPortOut) (q : Queue) : QueuePortsOut :=
  { pushOk := w.ok, full := w.full, popValid := r.valid, popFrame := r.frame, empty := r.empty
    pushed := q.pushed, dropped := q.dropped }

/-- One use of the ports, `pickPush` and `pickPop` being the draws of rule R61 under `lag`. The ports take effect one after
the other (rule R111): which one first, `pushFirst`, is free, and each samples its flag at its own turn (DESIGN CHOICE, log
entry 20). A clear takes effect after both; beside a request it has no meaning (rule R191). -/
def queuePorts (sel : QueueSel) (lag : Bool) (pickPush pickPop : Nat) (tail : Nat → Byte) (pushFirst : Bool)
    (i : QueuePortsIn) (q : Queue) : Res (QueuePortsOut × Queue) :=
  if i.clear && (i.pushReq || i.popReq) then .refused .clearOverlap
  else
    andThen
      (if pushFirst then
        andThen (pushPort lag pickPush i.pushReq i.pushFrame q) fun a =>
          andThen (popPort sel lag pickPop tail i.popReq a.2) fun b => .next (portsOut a.1 b.1 q, b.2)
      else
        andThen (popPort sel lag pickPop tail i.popReq q) fun b =>
          andThen (pushPort lag pickPush i.pushReq i.pushFrame b.2) fun a => .next (portsOut a.1 b.1 q, a.2))
      fun r => .next (r.1, if i.clear then r.2.clear else r.2)

end Sys2Proof.Machine
end

