-- ==== Sys2Proof/Laws/Ports.lean ====
section
/-! SUPPORT. What the ports of rule R81 do: the answers to the requests are the ones the flag outputs announce, and the queue
keeps its invariant. -/
namespace Sys2Proof.Machine

/-- Everything the write port can do: `full` is what decides a `push_req`. -/
theorem pushPort_cases {lag : Bool} {pick : Nat} {req : Bool} {v : BitVec 102} {q p : Queue} {o : WritePortOut}
    (h : pushPort lag pick req v q = .next (o, p)) :
    o.full = (q.refreshProducer lag pick).fullFlag lag ∧
      ((req = false ∧ o.ok = none ∧ p = q.refreshProducer lag pick) ∨
        (req = true ∧ o.ok = some (!o.full) ∧ q.tryPush lag pick (unpackFrame v) = .next (!o.full, p))) := by
  unfold pushPort at h
  split at h
  · rename_i hr
    obtain ⟨⟨b, u⟩, hu, h⟩ := andThen_eq_next.1 h
    simp only [Host.Outcome.next.injEq, Prod.mk.injEq] at h
    obtain ⟨rfl, rfl⟩ := h
    have hb : b = !(q.refreshProducer lag pick).fullFlag lag := by
      rcases Queue.tryPush_cases hu with ⟨rfl, hf, -⟩ | ⟨rfl, hf, -⟩ <;> simp [hf]
    exact ⟨rfl, .inr ⟨hr, by rw [hb], by rw [← hb]; exact hu⟩⟩
  · rename_i hr
    simp only [Host.Outcome.next.injEq, Prod.mk.injEq] at h
    obtain ⟨rfl, rfl⟩ := h
    exact ⟨rfl, .inl ⟨by simpa using hr, rfl, rfl⟩⟩

/-- Everything the read port can do: `empty` is what decides a `pop_req`. -/
theorem popPort_cases {sel : QueueSel} {lag : Bool} {pick : Nat} {tail : Nat → Byte} {req : Bool} {q p : Queue} {o : ReadPortOut}
    (h : popPort sel lag pick tail req q = .next (o, p)) :
    o.empty = (q.refreshConsumer lag pick).emptyFlag lag ∧
      ((req = false ∧ o.valid = none ∧ o.frame = none ∧ p = q.refreshConsumer lag pick) ∨
        (req = true ∧ o.valid = some (!o.empty) ∧
          ∃ r, q.tryPop sel lag pick = .next (r, p) ∧ r.isSome = !o.empty ∧ o.frame = r.map (packFrameWith tail))) := by
  unfold popPort at h
  split at h
  · rename_i hr
    obtain ⟨⟨r, u⟩, hu, h⟩ := andThen_eq_next.1 h
    simp only [Host.Outcome.next.injEq, Prod.mk.injEq] at h
    obtain ⟨rfl, rfl⟩ := h
    have hb : r.isSome = !(q.refreshConsumer lag pick).emptyFlag lag := by
      rcases Queue.tryPop_cases hu with ⟨rfl, hf, -⟩ | ⟨rfl, hf, -⟩ <;> simp [hf]
    exact ⟨rfl, .inr ⟨hr, by rw [hb], r, hu, hb, rfl⟩⟩
  · rename_i hr
    simp only [Host.Outcome.next.injEq, Prod.mk.injEq] at h
    obtain ⟨rfl, rfl⟩ := h
    exact ⟨rfl, .inl ⟨by simpa using hr, rfl, rfl, rfl⟩⟩

/-- The fixed fields of a packed record do not depend on the free bytes beyond its length (rule R79, decision D7). -/
theorem packFrameWith_fields (tail : Nat → Byte) (f : FrameRecord) :
    (packFrameWith tail f).extractLsb' 0 38 = (packFrame f).extractLsb' 0 38 := by
  apply BitVec.eq_of_getLsbD_eq
  intro i hi
  have h (n : Nat) (hn : 38 ≤ n) : i < n := by omega
  simp [packFrame, packFrameWith, placeBytes, place, hi, h]

/-- A frame word is a Frame Record (rules R20, R79). -/
theorem unpackFrame_wf (v : BitVec 102) : (unpackFrame v).wf = true := by
  simp [unpackFrame, FrameRecord.wf, Len.bytes, bytesAt, Config.maxLen]

theorem Queue.Inv.pushPort {lag : Bool} {pick : Nat} {req : Bool} {v : BitVec 102} {q p : Queue} {o : WritePortOut}
    (hi : q.Inv lag) (h : pushPort lag pick req v q = .next (o, p)) : p.Inv lag := by
  rcases (pushPort_cases h).2 with ⟨-, -, rfl⟩ | ⟨-, -, hp⟩
  · exact hi.refreshProducer pick
  · exact hi.tryPush (unpackFrame_wf v) hp

theorem Queue.Inv.popPort {sel : QueueSel} {lag : Bool} {pick : Nat} {tail : Nat → Byte} {req : Bool} {q p : Queue}
    {o : ReadPortOut} (hi : q.Inv lag) (h : popPort sel lag pick tail req q = .next (o, p)) : p.Inv lag := by
  rcases (popPort_cases h).2 with ⟨-, -, -, rfl⟩ | ⟨-, -, r, hp, -⟩
  · exact hi.refreshConsumer pick
  · exact hi.tryPop hp

/-- Rule R81, in either order of the ports and with either SYNC_LAG: a `push_req` succeeds exactly when `full` is 0, a
`pop_req` exactly when `empty` is 0, and an output without its request is absent. -/
theorem queuePorts_cases {sel : QueueSel} {lag : Bool} {k l : Nat} {tail : Nat → Byte} {first : Bool}
    {i : QueuePortsIn} {q p : Queue} {o : QueuePortsOut} (h : queuePorts sel lag k l tail first i q = .next (o, p)) :
    (i.clear = true → i.pushReq = false ∧ i.popReq = false) ∧
      o.pushOk = (if i.pushReq then some (!o.full) else none) ∧
      o.popValid = (if i.popReq then some (!o.empty) else none) ∧
      (o.popFrame.isSome = true ↔ o.popValid = some true) ∧ o.pushed = q.pushed ∧ o.dropped = q.dropped ∧
      (q.Inv lag → p.Inv lag) := by
  unfold queuePorts at h
  split at h
  · simp at h
  · rename_i hc
    obtain ⟨⟨o', p'⟩, hr, h⟩ := andThen_eq_next.1 h
    simp only [Host.Outcome.next.injEq, Prod.mk.injEq] at h
    obtain ⟨rfl, rfl⟩ := h
    have hq : ∃ (w : WritePortOut) (r : ReadPortOut), o' = portsOut w r q ∧
        w.ok = (if i.pushReq then some (!w.full) else none) ∧ r.valid = (if i.popReq then some (!r.empty) else none) ∧
        (r.frame.isSome = true ↔ r.valid = some true) ∧ (q.Inv lag → p'.Inv lag) := by
      split at hr
      · obtain ⟨⟨w, u⟩, hw, hr⟩ := andThen_eq_next.1 hr
        obtain ⟨⟨r, u'⟩, hp, hr⟩ := andThen_eq_next.1 hr
        simp only [Host.Outcome.next.injEq, Prod.mk.injEq] at hr
        obtain ⟨rfl, rfl⟩ := hr
        refine ⟨w, r, rfl, ?_, ?_, ?_, fun hi => (hi.pushPort hw).popPort hp⟩
        · rcases (pushPort_cases hw).2 with ⟨h1, h2, -⟩ | ⟨h1, h2, -⟩ <;> simp [h1, h2]
        · rcases (popPort_cases hp).2 with ⟨h1, h2, -⟩ | ⟨h1, h2, -⟩ <;> simp [h1, h2]
        · rcases (popPort_cases hp).2 with ⟨h1, h2, h3, -⟩ | ⟨h1, h2, x, -, h3, h4⟩
          · simp [h2, h3]
          · simp [h2, h4, h3]
      · obtain ⟨⟨r, u⟩, hp, hr⟩ := andThen_eq_next.1 hr
        obtain ⟨⟨w, u'⟩, hw, hr⟩ := andThen_eq_next.1 hr
        simp only [Host.Outcome.next.injEq, Prod.mk.injEq] at hr
        obtain ⟨rfl, rfl⟩ := hr
        refine ⟨w, r, rfl, ?_, ?_, ?_, fun hi => (hi.popPort hp).pushPort hw⟩
        · rcases (pushPort_cases hw).2 with ⟨h1, h2, -⟩ | ⟨h1, h2, -⟩ <;> simp [h1, h2]
        · rcases (popPort_cases hp).2 with ⟨h1, h2, -⟩ | ⟨h1, h2, -⟩ <;> simp [h1, h2]
        · rcases (popPort_cases hp).2 with ⟨h1, h2, h3, -⟩ | ⟨h1, h2, x, -, h3, h4⟩
          · simp [h2, h3]
          · simp [h2, h4, h3]
    obtain ⟨w, r, rfl, h1, h2, h3, h4⟩ := hq
    refine ⟨by simpa using hc, h1, h2, h3, rfl, rfl, fun hi => ?_⟩
    split
    · exact (h4 hi).clear
    · exact h4 hi

end Sys2Proof.Machine
end

