-- ==== Sys2Proof/Laws/Transport.lean ====
section
/-! SUPPORT. What the parts of the Transport's operations can change and that they keep both queues' invariants. -/
namespace Sys2Proof.Machine

/-- What sending can change (rules R122, R124): both queues, but neither a capacity nor RXQ's read pointer; `engine_log`,
which grows by messages of dlc at most 8; `framesSent`, which grows by as many; `sendErrors`, which grows by `e`; and what
notifications and free choices change. -/
def State.SentTo (s t : State) (e : Nat) : Prop :=
  ∃ (r q : Queue) (ws : List WireMessage) (n : Nat) (a : List Arrival) (o : Oracle),
    t = { s with rxq := r, txq := q, framesSent := s.framesSent + ws.length, sendErrors := s.sendErrors + e
                 busErrors := n, engineLog := s.engineLog ++ ws, arrivals := a, oracle := o } ∧
      r.cap = s.rxq.cap ∧ r.rptr = s.rxq.rptr ∧ q.cap = s.txq.cap ∧ ∀ w ∈ ws, w.dlc.toNat ≤ 8

theorem State.SentTo.trans {s t u : State} {e e' : Nat} (h : s.SentTo t e) (h' : t.SentTo u e') : s.SentTo u (e + e') := by
  obtain ⟨r, q, ws, n, a, o, rfl, h1, h2, h3, h4⟩ := h
  obtain ⟨r', q', ws', n', a', o', rfl, h1', h2', h3', h4'⟩ := h'
  refine ⟨r', q', ws ++ ws', n', a', o', ?_, h1'.trans h1, h2'.trans h2, h3'.trans h3, ?_⟩
  · simp only [List.length_append, Nat.add_assoc, List.append_assoc]
  · intro w hw; exact (List.mem_append.1 hw).elim (h4 w) (h4' w)

/-- An oracle of another content, both queues of the same capacities, and nothing else: a send of nothing. -/
theorem State.SentTo.quiet (s : State) (r q : Queue) (n : Nat) (a : List Arrival) (o : Oracle) (h1 : r.cap = s.rxq.cap)
    (h2 : r.rptr = s.rxq.rptr) (h3 : q.cap = s.txq.cap) :
    s.SentTo { s with rxq := r, txq := q, busErrors := n, arrivals := a, oracle := o } 0 :=
  ⟨r, q, [], n, a, o, by simp, h1, h2, h3, nofun⟩

theorem State.SentTo.refl (s : State) : s.SentTo s 0 := .quiet s _ _ _ _ _ rfl rfl rfl

theorem State.NotifiedTo.sentTo {s t : State} (h : s.NotifiedTo t) : s.SentTo t 0 := by
  obtain ⟨q, n, a, ps, k, rfl, hc, hr⟩ := h
  exact .quiet s q s.txq n a _ hc hr rfl

theorem State.SentTo.params {s t : State} {e : Nat} (h : s.SentTo t e) : t.params = s.params := by
  obtain ⟨r, q, ws, n, a, o, rfl, -⟩ := h; rfl

theorem State.askEngine_sentTo (s : State) : s.SentTo s.askEngine.2 0 := by
  rw [s.askEngine_eq]; exact .quiet s s.rxq s.txq s.busErrors s.arrivals _ rfl rfl rfl

/-- A flag read changes a copy and the oracle only (rules R61, R65). -/
theorem State.testEmpty_sentTo (s : State) (sel : QueueSel) : s.SentTo (s.testEmpty sel).2 0 := by
  unfold State.testEmpty State.flagQueue
  have e := (s.queue sel).refreshTo_eq (askingSide .consumer s.issuer sel) s.params.syncLag s.drawPick.1
  rw [e, s.drawPick_eq]
  cases sel
  · exact .quiet s _ s.txq s.busErrors s.arrivals _ rfl rfl rfl
  · exact .quiet s s.rxq _ s.busErrors s.arrivals _ rfl rfl rfl

/-- A TRY_POP of TXQ sends nothing. -/
theorem State.tryPop_tx_sentTo {s t : State} {r : Option FrameRecord} (h : s.tryPop .tx = .next (r, t)) : s.SentTo t 0 := by
  obtain ⟨p, hp, rfl⟩ := State.tryPop_cases h
  rw [s.drawPick_eq]
  exact .quiet s s.rxq p s.busErrors s.arrivals _ rfl rfl (Queue.tryPop_keeps hp).1

/-- A TRY_PUSH into TXQ sends nothing. -/
theorem State.tryPush_tx_sentTo {s t : State} {f : FrameRecord} {b : Bool} (h : s.tryPush .tx f = .next (b, t)) :
    s.SentTo t 0 := by
  obtain ⟨p, hp, rfl⟩ := State.tryPush_cases h
  rw [s.drawPick_eq]
  exact .quiet s s.rxq p s.busErrors s.arrivals _ rfl rfl (Queue.tryPush_keeps hp).1

/-- A submission with the statistics it is counted in (rules R122, R124, R138). -/
theorem State.submit_sentTo {s t : State} {f : FrameRecord} {b : Bool} (h : s.submit f = .next (b, t)) :
    (b = true → s.SentTo t.countSent 0) ∧ (b = false → s.SentTo t.countSendError 1) := by
  obtain ⟨hl, h⟩ := State.submit_cases h
  simp only [Prod.mk.injEq] at h
  obtain ⟨rfl, rfl⟩ := h
  have hd : (s.offered f).dlc.toNat ≤ 8 := of_decide_eq_true hl
  constructor <;> intro hb <;> rw [hb]
  · exact ⟨s.rxq, s.txq, [s.offered f], s.busErrors, s.arrivals, _, rfl, rfl, rfl, rfl, by simpa using hd⟩
  · exact ⟨s.rxq, s.txq, [], s.busErrors, s.arrivals, s.oracleAfterSubmit, by simp [State.countSendError], rfl, rfl, rfl, nofun⟩

/-- A submission moves no queue. -/
theorem State.submit_queues {s t : State} {f : FrameRecord} {b : Bool} (h : s.submit f = .next (b, t)) :
    t.rxq = s.rxq ∧ t.txq = s.txq ∧ t.params = s.params := by
  obtain ⟨-, h⟩ := State.submit_cases h
  simp only [Prod.mk.injEq] at h
  obtain ⟨rfl, rfl⟩ := h
  exact ⟨rfl, rfl, rfl⟩

/-- Notifications commute with the statistics: what they can change is none of them. -/
theorem State.NotifiedTo.countSent {s t : State} (h : s.NotifiedTo t) : s.countSent.NotifiedTo t.countSent := by
  obtain ⟨q, n, a, ps, k, rfl, hc, hr⟩ := h
  exact ⟨q, n, a, ps, k, rfl, hc, hr⟩

theorem State.NotifiedTo.countSendError {s t : State} (h : s.NotifiedTo t) :
    s.countSendError.NotifiedTo t.countSendError := by
  obtain ⟨q, n, a, ps, k, rfl, hc, hr⟩ := h
  exact ⟨q, n, a, ps, k, rfl, hc, hr⟩

/-- Everything the drain can change (rule R122): at most one rejected frame, and then it has ended on it. -/
theorem State.drain_sentTo {fuel : Nat} {s t : State} {b : Bool} (h : s.drain fuel = .next (b, t)) :
    s.SentTo t (if b then 1 else 0) := by
  induction fuel generalizing s with
  | zero => simp only [State.drain, Host.Outcome.next.injEq, Prod.mk.injEq] at h; obtain ⟨rfl, rfl⟩ := h; exact .refl s
  | succ fuel ih =>
    unfold State.drain at h
    have h0 := s.testEmpty_sentTo .tx
    split at h
    · simp only [Host.Outcome.next.injEq, Prod.mk.injEq] at h; obtain ⟨rfl, rfl⟩ := h; exact h0
    · obtain ⟨u1, hu1, h⟩ := andThen_eq_next.1 h
      have h1 := (h0.trans (State.preempt_notifiedTo hu1).sentTo).trans u1.askEngine_sentTo
      split at h
      · obtain ⟨u2, hu2, h⟩ := andThen_eq_next.1 h
        obtain ⟨⟨r, u3⟩, hu3, h⟩ := andThen_eq_next.1 h
        obtain ⟨u4, hu4, h⟩ := andThen_eq_next.1 h
        have h2 := ((h1.trans (State.preempt_notifiedTo hu2).sentTo).trans (State.tryPop_tx_sentTo hu3)).trans
          (State.preempt_notifiedTo hu4).sentTo
        dsimp only at h
        cases r with
        | none => simp only [Host.Outcome.next.injEq, Prod.mk.injEq] at h; obtain ⟨rfl, rfl⟩ := h; exact h2
        | some f =>
          obtain ⟨⟨ok, u5⟩, hu5, h⟩ := andThen_eq_next.1 h
          obtain ⟨u6, hu6, h⟩ := andThen_eq_next.1 h
          obtain ⟨hyes, hno⟩ := State.submit_sentTo hu5
          have h6 := State.preempt_notifiedTo hu6
          dsimp only at h
          cases ok with
          | true =>
            simp only [if_true] at h
            obtain ⟨u7, hu7, h⟩ := andThen_eq_next.1 h
            have h7 := ((h2.trans (hyes rfl)).trans h6.countSent.sentTo).trans (State.preempt_notifiedTo hu7).sentTo
            simpa using h7.trans (ih h)
          | false =>
            simp only [Bool.false_eq_true, if_false, Host.Outcome.next.injEq, Prod.mk.injEq] at h
            obtain ⟨rfl, rfl⟩ := h
            simpa using (h2.trans (hno rfl)).trans h6.countSendError.sentTo
      · simp only [Host.Outcome.next.injEq, Prod.mk.injEq] at h; obtain ⟨rfl, rfl⟩ := h; exact h1

/-- Both queues keep the invariant of `Queue.Inv`. -/
def State.QueuesInv (s : State) : Prop := s.rxq.Inv s.params.syncLag ∧ s.txq.Inv s.params.syncLag

theorem State.QueuesInv.askEngine {s : State} (h : s.QueuesInv) : s.askEngine.2.QueuesInv := by
  simpa [State.QueuesInv] using h

theorem State.QueuesInv.testEmpty {s : State} (sel : QueueSel) (h : s.QueuesInv) : (s.testEmpty sel).2.QueuesInv := by
  cases sel <;> simp only [State.QueuesInv, State.testEmpty, State.flagQueue, State.setQueue_params, State.drawPick_params,
    State.setQueue_rx_rxq, State.setQueue_rx_txq, State.setQueue_tx_rxq, State.setQueue_tx_txq, State.drawPick_rxq,
    State.drawPick_txq, State.queue_rx, State.queue_tx]
  · exact ⟨h.1.refreshTo _ _, h.2⟩
  · exact ⟨h.1, h.2.refreshTo _ _⟩

theorem State.QueuesInv.testFull {s : State} (sel : QueueSel) (h : s.QueuesInv) : (s.testFull sel).2.QueuesInv := by
  cases sel <;> simp only [State.QueuesInv, State.testFull, State.flagQueue, State.setQueue_params, State.drawPick_params,
    State.setQueue_rx_rxq, State.setQueue_rx_txq, State.setQueue_tx_rxq, State.setQueue_tx_txq, State.drawPick_rxq,
    State.drawPick_txq, State.queue_rx, State.queue_tx]
  · exact ⟨h.1.refreshTo _ _, h.2⟩
  · exact ⟨h.1, h.2.refreshTo _ _⟩

theorem State.NotifiedTo.txq {s t : State} (h : s.NotifiedTo t) : t.txq = s.txq := by
  obtain ⟨q, n, a, ps, k, rfl, -, -⟩ := h; rfl

theorem State.QueuesInv.preempt {s t : State} (h : s.QueuesInv) (hs : s.preempt = .next t) : t.QueuesInv := by
  have hn := State.preempt_notifiedTo hs
  unfold State.QueuesInv
  rw [hn.params, hn.txq]
  exact ⟨State.preempt_inv h.1 hs, h.2⟩

theorem State.QueuesInv.tryPush {s t : State} {sel : QueueSel} {f : FrameRecord} {b : Bool} (h : s.QueuesInv)
    (hf : f.wf = true) (hp : s.tryPush sel f = .next (b, t)) : t.QueuesInv := by
  obtain ⟨p, hq, rfl⟩ := State.tryPush_cases hp
  cases sel <;> simp only [State.QueuesInv, State.setQueue_params, State.drawPick_params, State.setQueue_rx_rxq,
    State.setQueue_rx_txq, State.setQueue_tx_rxq, State.setQueue_tx_txq, State.drawPick_rxq, State.drawPick_txq]
  · exact ⟨h.1.tryPush hf hq, h.2⟩
  · exact ⟨h.1, h.2.tryPush hf hq⟩

theorem State.QueuesInv.tryPop {s t : State} {sel : QueueSel} {r : Option FrameRecord} (h : s.QueuesInv)
    (hp : s.tryPop sel = .next (r, t)) : t.QueuesInv := by
  obtain ⟨p, hq, rfl⟩ := State.tryPop_cases hp
  cases sel <;> simp only [State.QueuesInv, State.setQueue_params, State.drawPick_params, State.setQueue_rx_rxq,
    State.setQueue_rx_txq, State.setQueue_tx_rxq, State.setQueue_tx_txq, State.drawPick_rxq, State.drawPick_txq]
  · exact ⟨h.1.tryPop hq, h.2⟩
  · exact ⟨h.1, h.2.tryPop hq⟩

theorem State.QueuesInv.submit {s t : State} {f : FrameRecord} {b : Bool} (h : s.QueuesInv)
    (hs : s.submit f = .next (b, t)) : t.QueuesInv := by
  obtain ⟨h1, h2, h3⟩ := State.submit_queues hs
  unfold State.QueuesInv; rw [h1, h2, h3]; exact h

theorem State.QueuesInv.clearQueue {s : State} (sel : QueueSel) (h : s.QueuesInv) : (s.clearQueue sel).QueuesInv := by
  cases sel
  · exact ⟨h.1.clear, h.2⟩
  · exact ⟨h.1, h.2.clear⟩

/-- The drain keeps both queues' invariants. -/
theorem State.QueuesInv.drain {fuel : Nat} {s t : State} {b : Bool} (hi : s.QueuesInv)
    (h : s.drain fuel = .next (b, t)) : t.QueuesInv := by
  induction fuel generalizing s with
  | zero => simp only [State.drain, Host.Outcome.next.injEq, Prod.mk.injEq] at h; exact h.2 ▸ hi
  | succ fuel ih =>
    unfold State.drain at h
    have h0 := hi.testEmpty .tx
    split at h
    · simp only [Host.Outcome.next.injEq, Prod.mk.injEq] at h; exact h.2 ▸ h0
    · obtain ⟨u1, hu1, h⟩ := andThen_eq_next.1 h
      have h1 := (h0.preempt hu1).askEngine
      split at h
      · obtain ⟨u2, hu2, h⟩ := andThen_eq_next.1 h
        obtain ⟨⟨r, u3⟩, hu3, h⟩ := andThen_eq_next.1 h
        obtain ⟨u4, hu4, h⟩ := andThen_eq_next.1 h
        have h4 := ((h1.preempt hu2).tryPop hu3).preempt hu4
        dsimp only at h
        cases r with
        | none => simp only [Host.Outcome.next.injEq, Prod.mk.injEq] at h; exact h.2 ▸ h4
        | some f =>
          obtain ⟨⟨ok, u5⟩, hu5, h⟩ := andThen_eq_next.1 h
          obtain ⟨u6, hu6, h⟩ := andThen_eq_next.1 h
          have h6 := (h4.submit hu5).preempt hu6
          dsimp only at h
          cases ok with
          | true =>
            simp only [if_true] at h
            obtain ⟨u7, hu7, h⟩ := andThen_eq_next.1 h
            exact ih (State.QueuesInv.preempt (s := u6.countSent) h6 hu7) h
          | false =>
            simp only [Bool.false_eq_true, if_false, Host.Outcome.next.injEq, Prod.mk.injEq] at h
            exact h.2 ▸ h6
      · simp only [Host.Outcome.next.injEq, Prod.mk.injEq] at h; exact h.2 ▸ h1

end Sys2Proof.Machine
end

