-- ==== Sys2Proof/Tests/Slice0.lean ====
section
/-! SUPPORT. Tests: the well-formedness smoke, words written out from the spec's encodings, at most two single steps per
operation with results from 95_test_vectors.md, and a witness for every statement that has hypotheses. -/
namespace Sys2Proof.Tests
open Sys2Proof.Machine

/-! ### Helpers -/

/-- The outcome is a next state that has the property. -/
def after (o : Res State) (p : State → Bool) : Bool :=
  match o with
  | .next t => p t
  | .fault _ => false
  | .refused _ => false

/-- The outcome is this refusal. -/
def refusedAs (o : Res State) (r : Refusal) : Bool :=
  match o with
  | .next _ => false
  | .fault _ => false
  | .refused r' => r == r'

/-- The decoded operation, if any. -/
def decoded (p : PortWord) : Option Instr :=
  match decode p with
  | .ok i => some i
  | .error _ => none

/-- A record in the order of the spec's literals (rule R83). -/
def fr (id : Word) (length : Len) (rtr ext : Bool) (data : List Byte) : FrameRecord :=
  { id := id, length := length, isRemoteRequest := rtr, isExtended := ext, data := data }

/-- A message of at most eight bytes; the bytes beyond are 0. -/
def wm (id : Word) (dlc : Len) (data : List Byte) : WireMessage :=
  { id := id, dlc := dlc
    data := #v[data.getD 0 0, data.getD 1 0, data.getD 2 0, data.getD 3 0, data.getD 4 0, data.getD 5 0,
      data.getD 6 0, data.getD 7 0] }

/-- Frames A, B, C, D of program P3. -/
def frameA : FrameRecord := fr 0x10 1 false false [0xA1]
def frameB : FrameRecord := fr 0x11 1 false false [0xB2]
def frameC : FrameRecord := fr 0x12 0 true false []
def frameD : FrameRecord := fr 0x18DAF110 2 false true [0xC3, 0xC4]
/-- A record that TRY_PUSH takes and ENCODE refuses. -/
def tooLong : FrameRecord := fr 0x123 9 false false [1, 2, 3, 4, 5, 6, 7, 8]

/-- A queue that has taken `fs` and given none back. -/
def filled (cap : Nat) (fs : List FrameRecord) : Queue :=
  { Queue.empty cap with
    slots := fs.zipIdx.map (fun p => (p.2, p.1)), wptr := fs.length % cap, count := fs.length
    pushed := fs.length, pushes := fs.length, pushesSeen := fs.length }

/-- The queue of section 2.3 after step 11: full, both pointers at 2, six pushed, two dropped, `a`, `b` popped. -/
def wrapped : Queue :=
  { cap := 4, slots := [(0, frameC), (1, frameD), (2, frameA), (3, frameB)], wptr := 2, rptr := 2, count := 4
    pushed := 6, dropped := 2, pushes := 6, pops := 2, pushesSeen := 6, popsSeen := 2, popped := 2, cleared := 0 }

/-- Power-on with the capacities of programs P3 and P4. -/
def stopped : State := State.powerOn 4 2 Config.EngineConfig.unset Config.Params.default
/-- The same in Running. -/
def running : State := { stopped with runState := .running, engine := .present, started := some Config.EngineConfig.unset }
/-- Running, with these queues. -/
def holding (rx tx : Queue) : State := { running with rxq := rx, txq := tx }
/-- With these Engine answers laid down. -/
def answering (s : State) (bs : List Bool) : State := { s with oracle := { s.oracle with answers := bs } }
/-- In the notification context. -/
def byNotify (s : State) : State := { s with issuer := .notify }
/-- With SYNC_LAG. -/
def lagging (s : State) : State := { s with params := { syncLag := true, idMask := .keepBit29 } }
/-- With these draws of rule R61 laid down. -/
def drawing (s : State) (ps : List Nat) : State := { s with oracle := { s.oracle with picks := ps } }
/-- With these notifications due at the next preemption point. -/
def arriving (s : State) (ns : List Notification) : State := { s with arrivals := ns.map fun n => { gap := 0, event := n } }
/-- The state of vector T20: counters 5/3/2/1, one frame in each queue. -/
def busy : State :=
  { holding (filled 4 [frameD]) (filled 2 [frameA]) with framesSent := 5, framesReceived := 3, sendErrors := 2, busErrors := 1 }

/-! ### Well-formedness (rule R20) -/

theorem test_wf_record : (fr 0x123 2 false false [0xAA, 0xBB]).wf = true ∧ tooLong.wf = true := by decide
theorem test_wf_refuses_short_data : (fr 0x123 2 false false [0xAA]).wf = false := by decide
theorem test_wf_refuses_ninth_byte : (fr 0x123 9 false false [1, 2, 3, 4, 5, 6, 7, 8, 9]).wf = false := by decide
theorem test_wf_instr_refuses :
    (Instr.encode (fr 0 1 false false [])).wf = false ∧ (Instr.tryPush .rx (fr 0 0 false false [1])).wf = false ∧
      (Instr.send (fr 0 8 false false [])).wf = false := by decide
/-- Rule R9: ids of 29 and of 11 bits, length 8. -/
theorem test_valid_bounds :
    (fr 0x1FFFFFFF 0 false true []).valid = true ∧ (fr 0x20000000 0 false true []).valid = false ∧
      (fr 0x7FF 0 false false []).valid = true ∧ (fr 0x800 0 false false []).valid = false ∧
      tooLong.valid = false := by decide

/-! ### Words written out from the spec (rules R73, R76, R79, R80; 95_test_vectors.md) -/

/-- E1. -/
theorem test_word_encode :
    decoded (.command 0b000000 0x0000000000002EEA8800000123) = some (.encode (fr 0x123 2 false false [0xAA, 0xBB])) := by
  decide
/-- E4: every payload byte in its place. -/
theorem test_word_encode_payload :
    decoded (.command 0b000000 0x0201C1814100C08060000007FF) =
      some (.encode (fr 0x7FF 8 false false [1, 2, 3, 4, 5, 6, 7, 8])) := by decide
/-- DV7. -/
theorem test_word_decode :
    decoded (.command 0b000010 0x80706050403020109000007FF) =
      some (.decode (wm 0x7FF 9 [0x10, 0x20, 0x30, 0x40, 0x50, 0x60, 0x70, 0x80])) := by decide
/-- Q6 with frame A of P3. -/
theorem test_word_tryPush :
    decoded (.command 0b000101 0x00000000000000284400000010) = some (.tryPush .tx frameA) ∧
      decoded (.command 0b000100 0x00000000000000284400000010) = some (.tryPush .rx frameA) := by decide
theorem test_word_queue_ops :
    decoded (.command 0b000110 0) = some (.tryPop .rx) ∧ decoded (.command 0b000111 0) = some (.tryPop .tx) ∧
      decoded (.command 0b001000 0) = some (.isEmpty .rx) ∧ decoded (.command 0b001001 0) = some (.isEmpty .tx) ∧
      decoded (.command 0b001010 0) = some (.isFull .rx) ∧ decoded (.command 0b001011 0) = some (.isFull .tx) ∧
      decoded (.command 0b001100 0) = some (.clear .rx) ∧ decoded (.command 0b001101 0) = some (.clear .tx) ∧
      decoded (.command 0b001110 0) = some (.rdPushed .rx) ∧ decoded (.command 0b001111 0) = some (.rdPushed .tx) ∧
      decoded (.command 0b010000 0) = some (.rdDropped .rx) ∧ decoded (.command 0b010001 0) = some (.rdDropped .tx) := by
  decide
theorem test_word_transport_ops :
    decoded (.command 0b010010 0) = some .beginRun ∧ decoded (.command 0b010100 0) = some .available ∧
      decoded (.command 0b010110 0) = some .getNextFrame ∧ decoded (.command 0b011010 0) = some .reset ∧
      decoded (.command 0b011100 0) = some .stop ∧ decoded (.command 0b011110 0) = some .receivedCount ∧
      decoded (.command 0b100000 0) = some .sentCount ∧ decoded (.command 0b100010 0) = some .sendErrorCount := by decide
/-- Frame D of P3. -/
theorem test_word_send :
    decoded (.command 0b011000 0x0000000000003130C918DAF110) = some (.send frameD) := by decide
theorem test_word_notify :
    decoded (.command 0b100100 0x00000000003322113400007FF) = some (.notifyRx (wm 0x400007FF 3 [0x11, 0x22, 0x33])) ∧
      decoded (.command 0b100110 0x00000000000000000C01ABCDE) = some (.notifyTx (wm 0xC01ABCDE 0 [])) ∧
      decoded (.command 0b101000 0xFFFFFFFFFFFFFFFF89FFFFFFF) =
        some (.notifyErr (wm 0x9FFFFFFF 8 [0xFF, 0xFF, 0xFF, 0xFF, 0xFF, 0xFF, 0xFF, 0xFF])) := by decide
theorem test_word_wireid :
    decoded (.wireId 0x00000123) = some (.wireidStdData 0x123) ∧
      decoded (.wireId 0x400007FF) = some (.wireidStdRemote 0x7FF) ∧
      decoded (.wireId 0x9FFFFFFF) = some (.wireidExtData 0x1FFFFFFF) ∧
      decoded (.wireId 0xC01ABCDE) = some (.wireidExtRemote 0x1ABCDE) := by decide
/-- The same through the opcode table's numbering: a command word of 8 bits, a wire id word of 32. -/
theorem test_word_table :
    decodeTableWord 8 0x12 = some .beginRun ∧ decodeTableWord 8 0x05 = some (.tryPush .tx zeroFrame) ∧
      decodeTableWord 32 0xC01ABCDE = some (.wireidExtRemote 0x1ABCDE) ∧ decodeTableWord 8 0x40 = none := by decide
/-- Q7 and the first and last reserved words (rule R77). -/
theorem test_word_reserved :
    decoded (.command 0x2A 0) = none ∧ decoded (.command 0x13 0) = none ∧ decoded (.command 0x29 0) = none ∧
      decoded (.command 0x3F 0) = none ∧ decoded (.command 0x01 0) = none ∧ decoded (.command 0x03 0) = none ∧
      decodeTableWord 8 0x2A = none := by decide
/-- E6, DV8: the encoder's words. -/
theorem test_word_of_encoder :
    encode (.encode (fr 0x1FFFFFFF 8 true true [0xFF, 0xFF, 0xFF, 0xFF, 0xFF, 0xFF, 0xFF, 0xFF])) =
        .command 0x00 0x3FFFFFFFFFFFFFFFE31FFFFFFF ∧
      encode (.decode (wm 0xFFFFFFFF 15 [1, 2, 3, 4, 5, 6, 7, 8])) = .command 0x02 0x0807060504030201FFFFFFFFF ∧
      encode (.wireidStdRemote 0x7FF) = .wireId 0x400007FF := by decide

/-! ### Single steps (95_test_vectors.md) -/

/-- E7: a remote request with data. -/
theorem test_encode_remote :
    after (exec (.encode (fr 0x7FF 3 true false [0x11, 0x22, 0x33])) stopped) (fun t =>
      match t.result with
      | .wire w => w.id == 0x400007FF && w.dlc == 3 && w.payload == [0x11, 0x22, 0x33]
      | _ => false) = true := by decide
/-- E13. -/
theorem test_encode_refuses_length_nine : refusedAs (exec (.encode tooLong) running) (.misuse .encodeLength) = true := by
  decide
/-- DV7. -/
theorem test_decode_clamps :
    after (exec (.decode (wm 0x7FF 9 [0x10, 0x20, 0x30, 0x40, 0x50, 0x60, 0x70, 0x80])) stopped) (fun t =>
      t.result == .frame (fr 0x7FF 8 false false [0x10, 0x20, 0x30, 0x40, 0x50, 0x60, 0x70, 0x80])) = true := by decide
/-- DV10 with the alternative mask. -/
theorem test_decode_other_mask :
    after (exec (.decode (wm 0xA0000000 4 [0xDE, 0xAD, 0xBE, 0xEF]))
        { stopped with params := { syncLag := false, idMask := .dropBit29 } }) (fun t =>
      t.result == .frame (fr 0 4 false true [0xDE, 0xAD, 0xBE, 0xEF])) = true := by decide
/-- Section 2.3 step 5: the last slot, `wptr` wraps. -/
theorem test_tryPush_wraps :
    after (exec (.tryPush .rx frameD) (byNotify (holding (filled 4 [frameA, frameB, frameC]) (filled 2 [])))) (fun t =>
      t.result == .bool true && t.rxq.wptr == 0 && t.rxq.count == 4 && t.rxq.pushed == 4 &&
        t.rxq.slots.read 3 == some frameD) = true := by decide
/-- Section 2.3 step 11. -/
theorem test_tryPush_drops :
    after (exec (.tryPush .rx frameD) (byNotify (holding wrapped (filled 2 [])))) (fun t =>
      t.result == .bool false && t.rxq == { wrapped with dropped := 3 } && t.cause == some .queueFull) = true := by decide
/-- Section 2.3 step 13: `rptr` wraps. -/
theorem test_tryPop_wraps :
    after (exec (.tryPop .rx) (holding { wrapped with rptr := 3, count := 3 } (filled 2 []))) (fun t =>
      t.result == .optFrame (some frameB) && t.rxq.rptr == 0 && t.rxq.count == 2 && t.rxq.wptr == 2) = true := by decide
/-- Section 2.3 step 1. -/
theorem test_tryPop_empty :
    after (exec (.tryPop .rx) stopped) (fun t => t.result == .optFrame none && t.rxq == Queue.empty 4) = true := by decide
/-- Q5. -/
theorem test_isEmpty :
    after (exec (.isEmpty .rx) (holding { Queue.empty 4 with wptr := 2, rptr := 2 } (filled 2 []))) (fun t =>
      t.result == .bool true) = true := by decide
/-- R103's example. -/
theorem test_isFull :
    after (exec (.isFull .rx) (holding wrapped (filled 2 []))) (fun t => t.result == .bool true) = true ∧
      after (exec (.isFull .tx) (holding wrapped (filled 2 [frameA]))) (fun t => t.result == .bool false) = true := by
  decide
/-- Section 2.3 step 17. -/
theorem test_clear_keeps_counters :
    after (exec (.clear .rx) (holding { wrapped with count := 0 } (filled 2 []))) (fun t =>
      t.rxq.wptr == 0 && t.rxq.rptr == 0 && t.rxq.count == 0 && t.rxq.pushed == 6 && t.rxq.dropped == 2) = true := by
  decide
/-- Q4. -/
theorem test_clear_overlap :
    refusedAs (exec (.clear .rx) (arriving running [.rxComplete (wm 1 0 [])])) .clearOverlap = true := by decide
/-- `RD_PUSHED` after step 17. -/
theorem test_rdPushed :
    after (exec (.rdPushed .rx) (holding wrapped (filled 2 []))) (fun t => t.result == .nat 6) = true := by decide
/-- `RD_DROPPED` after step 17. -/
theorem test_rdDropped :
    after (exec (.rdDropped .rx) (holding wrapped (filled 2 []))) (fun t => t.result == .nat 2) = true := by decide
/-- T22. -/
theorem test_begin :
    after (exec .beginRun { busy with runState := .stopped, engine := .absent, started := none }) (fun t =>
      t.runState == .running && t.framesSent == 0 && t.framesReceived == 0 && t.sendErrors == 0 && t.busErrors == 0 &&
        t.rxq.count == 0 && t.txq.wptr == 0 && t.rxq.pushed == 1 && t.engine == .present) = true := by decide
/-- R121 (b): a frame that arrives as soon as the Engine has started. -/
theorem test_begin_early_frame :
    after (exec .beginRun (arriving stopped [.rxComplete (wm 0x123 0 [])])) (fun t =>
      t.runState == .running && t.rxq.count == 1 && t.rxq.slots.read 0 == some (fr 0x123 0 false false [])) = true := by
  decide
/-- T7. -/
theorem test_available_partial :
    after (exec .available (answering (holding (filled 4 []) (filled 2 [frameA, frameB])) [true, true, false])) (fun t =>
      t.result == .bool false && t.framesSent == 1 && t.txq.count == 1 && t.txq.rptr == 1 &&
        t.engineLog.map (·.id) == [0x10]) = true := by decide
/-- T8. -/
theorem test_available_loses :
    after (exec .available (answering (holding (filled 4 []) (filled 2 [frameA, frameB])) [true, false])) (fun t =>
      t.framesSent == 0 && t.sendErrors == 1 && t.txq.count == 1 && t.engineLog == [] &&
        t.cause == some .engineRejected) = true := by decide
/-- T11. -/
theorem test_getNextFrame_empty :
    after (exec .getNextFrame running) (fun t =>
      t.result == .frame (fr 0 0 false false []) && t.framesReceived == 0 && t.rxq == Queue.empty 4) = true := by decide
/-- T12. -/
theorem test_getNextFrame :
    after (exec .getNextFrame (holding (filled 4 [frameD]) (filled 2 []))) (fun t =>
      t.result == .frame frameD && t.framesReceived == 1 && t.rxq.count == 0) = true := by decide
/-- P3, `SEND C`: both counters. -/
theorem test_send_full :
    after (exec (.send frameC) (answering (holding (filled 4 []) (filled 2 [frameA, frameB])) [false])) (fun t =>
      t.result == .bool false && t.sendErrors == 1 && t.txq.dropped == 1 && t.txq.count == 2) = true := by decide
/-- P3, `SEND D`: the direct path overtakes. -/
theorem test_send_overtakes :
    after (exec (.send frameD) (answering (holding (filled 4 []) (filled 2 [frameA, frameB])) [true, true])) (fun t =>
      t.result == .bool true && t.framesSent == 1 && t.txq.count == 2 &&
        t.engineLog.map (fun w => (w.id, w.dlc, w.payload)) == [(0x98DAF110, 2, [0xC3, 0xC4])]) = true := by decide
/-- T20. -/
theorem test_reset :
    after (exec .reset busy) (fun t =>
      t.runState == .running && t.framesSent == 0 && t.framesReceived == 0 && t.sendErrors == 0 && t.busErrors == 0 &&
        t.rxq.count == 0 && t.txq.count == 0 && t.rxq.pushed == 1 && t.txq.pushed == 1) = true := by decide
/-- T21. -/
theorem test_stop :
    after (exec .stop busy) (fun t =>
      t.runState == .stopped && t.engine == .absent && t.framesSent == 5 && t.rxq == busy.rxq && t.txq == busy.txq) =
        true := by decide
/-- T18. -/
theorem test_stopped_refuses :
    refusedAs (exec .stop stopped) (.misuse .notRunning) = true ∧
      refusedAs (exec .available stopped) (.misuse .notRunning) = true := by decide
/-- T19 with the counters of T20. -/
theorem test_counts :
    after (exec .receivedCount busy) (fun t => t.result == .nat 3) = true ∧
      after (exec .sentCount busy) (fun t => t.result == .nat 5) = true ∧
      after (exec .sendErrorCount busy) (fun t => t.result == .nat 2) = true := by decide
/-- T14. -/
theorem test_notifyRx :
    after (exec (.notifyRx (wm 0xC01ABCDE 0 [])) (byNotify running)) (fun t =>
      t.rxq.slots.read 0 == some (fr 0x1ABCDE 0 true true []) && t.rxq.count == 1 && t.rxq.pushed == 1 &&
        t.framesReceived == 0) = true := by decide
/-- T13. -/
theorem test_notifyRx_full :
    after (exec (.notifyRx (wm 1 0 [])) (byNotify (holding wrapped (filled 2 [])))) (fun t =>
      t.rxq == { wrapped with dropped := 3 }) = true := by decide
/-- T15, T16. -/
theorem test_notifyTx_notifyErr :
    after (exec (.notifyTx (wm 1 0 [])) (byNotify running)) (fun t => t == byNotify running) = true ∧
      after (exec (.notifyErr (wm 1 0 [])) (byNotify busy)) (fun t => t.busErrors == 2 && t.sendErrors == 2) = true := by
  decide
/-- The class table of rule R73 on the ids of DV3, DV4, DV6. -/
theorem test_wireid :
    after (exec (.wireidExtData 0) stopped) (fun t => t.result == .wireId true false 0) = true ∧
      after (exec (.wireidStdRemote 0) stopped) (fun t => t.result == .wireId false true 0) = true ∧
      after (exec (.wireidExtData 0x1FFFFFFF) stopped) (fun t => t.result == .wireId true false 0x1FFFFFFF) = true := by
  decide
/-- P4: a frame that arrives between the Engine call and the result of AVAILABLE is seen by it. -/
theorem test_available_sees_arrival :
    after (exec .available (arriving (answering (holding (filled 4 []) (filled 2 [frameA])) [false])
        [.rxComplete (wm 0x123 2 [0xAA, 0xBB])])) (fun t =>
      t.result == .bool true && t.txq.count == 1 && t.rxq.count == 1) = true := by decide
/-- A step performs the operation presented first. -/
theorem test_step :
    after (step (State.reset.withFetchWord 8 0x12)) (fun t => t.runState == .running && t.requests == []) = true ∧
      refusedAs (step (State.reset.withFetchWord 8 0x2A)) (.reserved (.reservedCode 21)) = true ∧
      after (step (State.reset.withFetchWord 32 0xC01ABCDE)) (fun t => t.result == .wireId true true 0x1ABCDE) = true := by
  decide

/-- Q1 at the ports (rules R81, R111): a push and a pop of a full queue, in either order; `full` tells the push's answer,
and the seven bytes beyond frame A's length are the free ones (decision D7). -/
theorem test_ports_full :
    (match queuePorts .rx false 0 0 (fun _ => 0x5A) true { pushReq := true, pushFrame := 0, popReq := true, clear := false }
        wrapped with
      | .next (o, q) => o.full && o.pushOk == some false && !o.empty && o.popValid == some true &&
          o.popFrame == some 0x16969696969696A84400000010 && q.dropped == 3 && q.count == 3
      | _ => false) = true ∧
    (match queuePorts .rx false 0 0 (fun _ => 0x5A) false { pushReq := true, pushFrame := 0, popReq := true, clear := false }
        wrapped with
      | .next (o, q) => !o.full && o.pushOk == some true && !o.empty && o.popValid == some true &&
          o.popFrame == some 0x16969696969696A84400000010 && q.dropped == 2 && q.count == 4
      | _ => false) = true := by decide
/-- Rule R81: a push that fills the queue finds `full` 0 and a pop of the last record `empty` 0; with SYNC_LAG a push
right after a pop of a full queue still finds `full` 1 when the producer's copy has not moved (rule R61). -/
theorem test_ports_edges :
    (match queuePorts .rx false 0 0 (fun _ => 0x5A) true { pushReq := true, pushFrame := 0, popReq := false, clear := false }
        (filled 2 [frameA]) with
      | .next (o, q) => !o.full && o.pushOk == some true && o.popValid == none && o.popFrame == none && q.count == 2
      | _ => false) = true ∧
    (match queuePorts .rx false 0 0 (fun _ => 0x5A) true { pushReq := false, pushFrame := 0, popReq := true, clear := false }
        (filled 2 [frameA]) with
      | .next (o, q) => !o.empty && o.popValid == some true && o.pushOk == none && q.count == 0
      | _ => false) = true ∧
    (match queuePorts .rx true 0 0 (fun _ => 0x5A) false { pushReq := true, pushFrame := 0, popReq := true, clear := false }
        wrapped with
      | .next (o, q) => o.popValid == some true && o.full && o.pushOk == some false && q.count == 3 && q.dropped == 3
      | _ => false) = true := by decide
/-- DV2 at `dec_out` (rules R79, R81): beyond length 0 all eight bytes are the free ones (decision D7). -/
theorem test_decPort_tail :
    decPort (fun _ => 0xFF) .keepBit29 0xC01ABCDE = 0x3FFFFFFFFFFFFFFFC3001ABCDE ∧
      decPort (fun _ => 0) .keepBit29 0xC01ABCDE = 0x3001ABCDE := by decide
/-- Rule R40: two Transports of different capacities, each with free choices of its own. -/
theorem test_instances :
    (powerOnInstances [{ rxCap := 4, txCap := 2, cfg := Config.EngineConfig.unset, params := Config.Params.default },
        { rxCap := 64, txCap := 16, cfg := Config.EngineConfig.unset, params := { syncLag := true, idMask := .dropBit29 } }]).map
      (fun s => (s.rxq.cap, s.txq.cap, s.params.syncLag, s.oracle.source, s.runState)) =
        [(4, 2, false, 0, .stopped), (64, 16, true, 1, .stopped)] := by decide
/-- Rule R61: with `pushes = 6`, `pops = 2` and copies 5 and 1, POLL asks IS_FULL of RXQ as the consumer (5 - 2 is not 4,
`pops_seen` does not move) and NOTIFY as the producer (6 - 2 = 4 after a draw of one). -/
theorem test_flags_from_the_side_that_asks :
    let s := drawing (lagging (holding { wrapped with pushesSeen := 5, popsSeen := 1 } (filled 2 []))) [0]
    let r := drawing (lagging (holding { wrapped with pushesSeen := 5, popsSeen := 1 } (filled 2 []))) [1]
    after (exec (.isFull .rx) s) (fun t => t.result == .bool false && t.rxq.pushesSeen == 5 && t.rxq.popsSeen == 1) = true ∧
      after (exec (.isFull .rx) (byNotify r)) (fun t =>
        t.result == .bool true && t.rxq.pushesSeen == 5 && t.rxq.popsSeen == 2) = true := by decide
/-- R188: a pop issued between W2 and W3 of the push of the first record sees the queue still empty. -/
theorem test_micro_before_publication :
    (match MicroQueue.run .rx { queue := filled 2 [], push := .idle, pop := .idle }
        [.startPush frameA, .producer, .producer, .startPop, .consumer, .producer] with
      | .next (es, m) => es == [.popped none, .pushed frameA true] && m.queue.count == 1
      | _ => false) = true := by decide

/-- A full view of a queue that has room: four pushed, two popped, of which the producer's copy may show none, one or two. -/
def staleFull : Queue :=
  { wrapped with wptr := 0, rptr := 2, count := 2, pushed := 4, pushes := 4, pushesSeen := 4, popsSeen := 0 }
/-- An empty view of a queue that holds a record, which the consumer's copy may show or not. -/
def staleEmpty : Queue := { filled 4 [frameD] with pushesSeen := 0 }

/-- Rules R61, R123: the all-zero record on a copy that has not moved, while RXQ holds a record. -/
theorem test_getNextFrame_stale :
    after (exec .getNextFrame (drawing (lagging (holding staleEmpty (filled 2 []))) [0])) (fun t =>
      t.result == .frame (fr 0 0 false false []) && t.framesReceived == 0 && t.rxq == staleEmpty) = true := by decide
/-- Rules R61, R124: QueueFull on a copy that has not moved, while TXQ has room. -/
theorem test_send_stale :
    after (exec (.send frameD) (answering (drawing (lagging (holding (filled 4 []) staleFull)) [0]) [false])) (fun t =>
      t.result == .bool false && t.sendErrors == 1 && t.txq == { staleFull with dropped := 3 }) = true := by decide
/-- Rules R61, R125: a drop on a copy that has not moved, while RXQ has room. -/
theorem test_notifyRx_stale :
    after (exec (.notifyRx (wm 1 0 [])) (byNotify (drawing (lagging (holding staleFull (filled 2 []))) [0]))) (fun t =>
      t.cause == some .queueFull && t.rxq == { staleFull with dropped := 3 }) = true := by decide

/-! ### Witnesses: a state and operands that meet the hypotheses of each statement, for each of its clauses -/

/-- A queue that has wrapped keeps the invariant, with either SYNC_LAG. -/
theorem wrapped_inv : wrapped.Inv false ∧ wrapped.Inv true := by
  constructor <;> constructor <;> decide
theorem filled_inv : (filled 4 [frameD]).Inv false ∧ (filled 2 [frameA]).Inv false ∧ (filled 4 [frameD]).Inv true ∧
    (filled 2 [frameA]).Inv true ∧ (filled 2 [frameA, frameB]).Inv false ∧ (filled 2 []).Inv false ∧
    (filled 4 []).Inv false ∧ (filled 1 []).Inv false ∧ (filled 1 [frameA]).Inv false := by
  refine ⟨?_, ?_, ?_, ?_, ?_, ?_, ?_, ?_, ?_⟩ <;> constructor <;> decide
theorem busy_inv : busy.Inv :=
  ⟨filled_inv.1, filled_inv.2.1, by decide, by decide, by decide⟩
theorem lagging_busy_inv : (lagging busy).Inv :=
  ⟨filled_inv.2.2.1, filled_inv.2.2.2.1, by decide, by decide, by decide⟩
theorem loaded_inv (bs : List Bool) : (answering (holding (filled 4 [frameD]) (filled 2 [frameA, frameB])) bs).Inv :=
  ⟨filled_inv.1, filled_inv.2.2.2.2.1, .intro (fun _ => rfl) fun _ => rfl, .intro (fun _ => rfl) fun _ => rfl, nofun⟩
/-- The invariant holds at reset. -/
theorem reset_inv : State.reset.Inv := by
  refine ⟨?_, ?_, by decide, by decide, by decide⟩ <;> constructor <;> decide

theorem test_hyp_PowerOnLeavesSpecValues : 1 ≤ (1 : Nat) := by decide
/-- The smallest legal capacities. -/
theorem test_hyp_PowerOnMeetsInvariant :
    (State.powerOn 1 1 Config.EngineConfig.unset Config.Params.default).Inv := by
  refine ⟨?_, ?_, by decide, by decide, by decide⟩ <;> constructor <;> decide
theorem test_hyp_StepKeepsInvariant : busy.Inv ∧ ∃ t, step busy = .next t := ⟨busy_inv, _, rfl⟩
theorem test_hyp_NoAccessLeavesTheSlots : (lagging busy).Inv := lagging_busy_inv
theorem test_hyp_StepRunsTheDecodedOperation :
    (State.reset.withFetchWord 8 0x12).requests = { context := .poll, word := .command 0x12 0 } :: [] ∧
      decoded (.command 0x12 0) = some .beginRun ∧ decoded (.command 0x3F 0) = none := by decide
/-- Nothing due; a NOTIFY_RX due before one to come; one to come; only a NOTIFY_ERR due. -/
theorem test_hyp_IdleBlockWaits :
    let r := { busy with arrivals := [{ gap := 0, event := .rxComplete (wm 1 0 []) }, { gap := 1, event := .error (wm 0 0 []) }] }
    let g := { busy with arrivals := [{ gap := 1, event := .error (wm 0 0 []) }] }
    busy.requests = [] ∧ busy.Undisturbed ∧ stopped.Undisturbed ∧ r.requests = [] ∧ r.started.isSome = true ∧
      r.arrivals = { gap := 0, event := .rxComplete (wm 1 0 []) } :: [{ gap := 1, event := .error (wm 0 0 []) }] ∧
      g.started.isSome = true ∧ g.arrivals = { gap := 0 + 1, event := .error (wm 0 0 []) } :: [] ∧
      rxDue (arriving busy [.error (wm 0 0 [])]).arrivals = false ∧ busy.runState = .running :=
  ⟨rfl, .inr rfl, .inl rfl, rfl, rfl, rfl, rfl, rfl, rfl, rfl⟩
theorem test_hyp_DecodeEncodeIsIdentity :
    (Instr.send frameD).wf = true ∧ (Instr.encode tooLong).wf = true ∧ (Instr.clear .tx).wf = true := by decide
theorem test_hyp_DecodedInstructionsAreWellFormed : decoded (.command 0x18 0) = some (.send zeroFrame) := by decide
theorem test_hyp_OneCommandWordPerOperation :
    decoded (.command 0x07 0) = some (.tryPop .tx) ∧ decoded (.wireId 0) = some (.wireidStdData 0) := by decide
/-- Codes 21 and 31; `q = 1` with 0, 1, 9 and 20; the operations 0, 2, 8 with `q = 1`, and 20. -/
theorem test_hyp_ReservedCommandWordsAreRefused :
    21 ≤ (0x2A#6).toNat / 2 ∧ 21 ≤ (0x3F#6).toNat / 2 ∧
      (∀ cmd ∈ [0x01#6, 0x03#6, 0x13#6, 0x29#6], cmd.toNat / 2 ≤ 20 ∧ cmd.toNat % 2 = 1 ∧
        (cmd.toNat / 2 < 2 ∨ 8 < cmd.toNat / 2)) ∧
      (∀ cmd ∈ [0x00#6, 0x05#6, 0x11#6, 0x28#6], cmd.toNat / 2 ≤ 20 ∧
        (cmd.toNat % 2 = 0 ∨ (2 ≤ cmd.toNat / 2 ∧ cmd.toNat / 2 ≤ 8))) := by decide
theorem test_hyp_EncodeGivesTheWireMessage :
    (fr 0x7FF 8 false false [1, 2, 3, 4, 5, 6, 7, 8]).wf = true ∧ (fr 0x7FF 8 false false []).length.toNat ≤ 8 ∧
      tooLong.wf = true ∧ 8 < tooLong.length.toNat := by decide
theorem test_hyp_DecodeGivesTheFrameRecord : State.reset.params.idMask = .keepBit29 := rfl
/-- A valid record; records on both sides of the second law. -/
theorem test_hyp_CodecRoundTrip :
    (fr 0x1FFFFFFF 0 false true []).valid = true ∧ frameD.wf = true ∧ frameD.length.toNat ≤ 8 ∧
      frameD.id &&& 0xC0000000#32 = 0#32 ∧ (fr 0x80000001 1 false false [0x99]).wf = true ∧
      (fr 0x80000001 1 false false [0x99]).id &&& 0xC0000000#32 ≠ 0#32 := by decide
theorem test_hyp_CodecReverseRoundTrip :
    (wm 0x123 8 []).dlc.toNat ≤ 8 ∧ 8 < (wm 0x123 9 []).dlc.toNat ∧ (wm 0xA0000000 4 []).id.getLsbD 29 = true ∧
      (wm 0x9FFFFFFF 8 []).id.getLsbD 29 = false := by decide
/-- A full and a not full queue, of either kind. -/
theorem test_hyp_TryPushStoresOrDrops :
    let s := byNotify (holding wrapped (filled 2 [])); let r := holding wrapped (filled 2 [frameA])
    permitted s.issuer (.tryPush .rx frameA) = true ∧ s.params.syncLag = false ∧
      (s.queue .rx).wptr < (s.queue .rx).cap ∧ (s.queue .rx).count = (s.queue .rx).cap ∧
      permitted r.issuer (.tryPush .tx frameA) = true ∧ r.params.syncLag = false ∧
      (r.queue .tx).wptr < (r.queue .tx).cap ∧ (r.queue .tx).count ≠ (r.queue .tx).cap := by decide
theorem stale_inv : staleFull.Inv true ∧ staleEmpty.Inv true := by
  constructor <;> constructor <;> decide
/-- The copy may stay behind (`seen = 0`: full by the test) or not (`seen = 2`). -/
theorem test_hyp_TryPushUnderSyncLag :
    permitted .notify (.tryPush .rx frameA) = true ∧ (lagging (holding staleFull (filled 2 []))).params.syncLag = true ∧
      staleFull.Inv true ∧ staleFull.pushes - 0 = staleFull.cap ∧ staleFull.pushes - 2 ≠ staleFull.cap :=
  ⟨rfl, rfl, stale_inv.1, rfl, by decide⟩
theorem test_hyp_TryPopReturnsTheOldest :
    let s := holding wrapped (filled 2 [])
    permitted s.issuer (.tryPop .rx) = true ∧ s.params.syncLag = false ∧ (s.queue .rx).rptr < (s.queue .rx).cap ∧
      (s.queue .rx).count ≠ 0 ∧ permitted .notify (.tryPop .tx) = true ∧ (s.queue .tx).rptr < (s.queue .tx).cap ∧
      (s.queue .tx).count = 0 := by decide
/-- The copy may stay behind (`seen = 0`: empty by the test) or not (`seen = 1`). -/
theorem test_hyp_TryPopUnderSyncLag :
    permitted .poll (.tryPop .rx) = true ∧ (lagging (holding staleEmpty (filled 2 []))).params.syncLag = true ∧
      staleEmpty.Inv true ∧ 0 - staleEmpty.pops = 0 ∧ 1 - staleEmpty.pops ≠ 0 :=
  ⟨rfl, rfl, stale_inv.2, rfl, by decide⟩
theorem test_hyp_FlagsReadTheOccupancy : busy.params.syncLag = false := rfl
/-- POLL and NOTIFY, on either queue. -/
theorem test_hyp_FlagsUnderSyncLag :
    (lagging busy).params.syncLag = true ∧ ((lagging busy).queue .rx).Inv true ∧ ((lagging busy).queue .tx).Inv true ∧
      (lagging busy).issuer = .poll ∧ (byNotify (lagging busy)).params.syncLag = true ∧
      ((byNotify (lagging busy)).queue .rx).Inv true ∧ ((byNotify (lagging busy)).queue .tx).Inv true ∧
      (byNotify (lagging busy)).issuer = .notify :=
  ⟨rfl, lagging_busy_inv.rx, lagging_busy_inv.tx, rfl, rfl, lagging_busy_inv.rx, lagging_busy_inv.tx, rfl⟩
theorem test_hyp_FlagsExcludeEachOther :
    wrapped.Inv false ∧ (filled 1 []).Inv false ∧ (filled 1 [frameA]).Inv false ∧ (filled 1 [frameA]).cap = 1 :=
  ⟨wrapped_inv.1, filled_inv.2.2.2.2.2.2.2.1, filled_inv.2.2.2.2.2.2.2.2, rfl⟩
/-- Nothing due; only others due; a NOTIFY_RX behind a NOTIFY_TX and a NOTIFY_ERR, for either queue. -/
theorem test_hyp_ClearResetsPointers :
    let a := arriving busy [.txComplete (wm 1 0 []), .error (wm 0 0 [])]
    let b := arriving busy [.txComplete (wm 1 0 []), .error (wm 0 0 []), .rxComplete (wm 1 0 [])]
    busy.issuer = .poll ∧ busy.Undisturbed ∧ a.started.isSome = true ∧ rxDue a.arrivals = false ∧
      errorsDue a.arrivals = 1 ∧ laterArrivals [{ gap := 2, event := .error (wm 0 0 []) }] =
        [{ gap := 1, event := .error (wm 0 0 []) }] ∧ b.started.isSome = true ∧ rxDue b.arrivals = true ∧
      ∃ t, b.preempt = .next t :=
  ⟨rfl, .inr rfl, rfl, rfl, rfl, rfl, rfl, rfl, _, rfl⟩
theorem test_hyp_QueueIsFifo : wrapped.Inv false ∧ wrapped.Inv true := wrapped_inv
theorem test_hyp_PopOrderIsPushOrder :
    (filled 2 []).Inv false ∧ (filled 2 []).count = 0 ∧ [frameA, frameB].length ≤ (filled 2 []).cap ∧
      ∀ f ∈ [frameA, frameB], f.wf = true :=
  ⟨filled_inv.2.2.2.2.2.1, rfl, by decide, by decide⟩
theorem test_hyp_OverflowLosesTheNewest :
    (filled 2 []).Inv false ∧ (filled 2 []).count = 0 ∧ [frameA, frameB].length = (filled 2 []).cap ∧
      ∀ f ∈ [frameA, frameB], f.wf = true :=
  ⟨filled_inv.2.2.2.2.2.1, rfl, by decide, by decide⟩
theorem test_hyp_CounterLaw :
    (∃ p, wrapped.tryPush false 0 frameA = .next (false, p)) ∧
      (∃ p, (filled 2 [frameA]).tryPush false 0 frameB = .next (true, p)) ∧
      (∃ r p, wrapped.tryPop .rx false 0 = .next (r, p)) ∧ wrapped.Inv false :=
  ⟨⟨_, rfl⟩, ⟨_, rfl⟩, ⟨_, _, rfl⟩, wrapped_inv.1⟩
/-- Between empty and full, full, and empty. -/
theorem test_hyp_PushAndPopInEitherOrder :
    (filled 2 [frameA]).Inv false ∧ 0 < (filled 2 [frameA]).count ∧ (filled 2 [frameA]).count < (filled 2 [frameA]).cap ∧
      wrapped.Inv false ∧ wrapped.count = wrapped.cap ∧ (filled 2 []).Inv false ∧ (filled 2 []).count = 0 :=
  ⟨filled_inv.2.1, by decide, by decide, wrapped_inv.1, rfl, filled_inv.2.2.2.2.2.1, rfl⟩
theorem test_hyp_MicroStepsRefineAtomicOperations : wrapped.Inv false ∧ (filled 2 []).Inv false :=
  ⟨wrapped_inv.1, filled_inv.2.2.2.2.2.1⟩
/-- With nothing coming, and with a NOTIFY_RX that runs in. -/
theorem test_hyp_BeginStartsTheTransport :
    stopped.issuer = .poll ∧ stopped.runState = .stopped ∧ stopped.arrivals = [] ∧
      (∃ t, exec .beginRun (arriving stopped [.rxComplete (wm 1 0 [])]) = .next t ∧ t.rxq.count = 1) :=
  ⟨rfl, rfl, rfl, _, rfl, rfl⟩
/-- The record that the drain pops may be one ENCODE refuses (rule R122 (d)). -/
theorem test_hyp_OperationsOutOfPlaceAreRefused :
    let r := answering (holding (filled 4 []) (filled 2 [tooLong])) [true]
    running.issuer = .poll ∧ running.runState = .running ∧ 8 < tooLong.length.toNat ∧ stopped.issuer = .poll ∧
      stopped.runState = .stopped ∧ (byNotify stopped).issuer = .notify ∧ (byNotify stopped).runState = .stopped ∧
      r.issuer = .poll ∧ r.runState = .running ∧ r.Undisturbed ∧ r.params.syncLag = false ∧ r.txq.count ≠ 0 ∧
      r.txq.rptr < r.txq.cap ∧ r.askEngine.1 = true ∧ 8 < (r.txq.slotValue .tx r.txq.rptr).length.toNat :=
  ⟨rfl, rfl, by decide, rfl, rfl, rfl, rfl, rfl, rfl, .inr rfl, rfl, by decide, by decide, rfl, by decide⟩
theorem test_hyp_AvailableWithNothingToSend :
    let s := holding (filled 4 [frameD]) (filled 2 [])
    s.issuer = .poll ∧ s.runState = .running ∧ s.Undisturbed ∧ s.params.syncLag = false ∧ s.txq.count = 0 :=
  ⟨rfl, rfl, .inr rfl, rfl, rfl⟩
theorem test_hyp_AvailableCompletes :
    busy.Inv ∧ busy.issuer = .poll ∧ busy.runState = .running ∧ (∀ f ∈ busy.waiting, f.length.toNat ≤ 8) ∧
      busy.arrivals = [] ∧ busy.params.syncLag = false :=
  ⟨busy_inv, rfl, rfl, by decide, rfl, rfl⟩
theorem test_hyp_DrainSendsEverythingInOrder :
    let s := answering (holding (filled 4 [frameD]) (filled 2 [frameA, frameB])) [true, true, true, true, false]
    s.Inv ∧ s.issuer = .poll ∧ s.runState = .running ∧ s.Undisturbed ∧ s.params.syncLag = false ∧
      (∀ f ∈ s.waiting, f.length.toNat ≤ 8) ∧ s.oracle.answers = List.replicate (2 * s.txq.count) true ++ [false] :=
  ⟨loaded_inv _, rfl, rfl, .inr rfl, rfl, by decide, rfl⟩
theorem test_hyp_DrainStopsWhenEngineIsNotReady :
    let s := answering busy [false]
    s.issuer = .poll ∧ s.runState = .running ∧ s.Undisturbed ∧ s.params.syncLag = false ∧ s.txq.count ≠ 0 ∧
      s.askEngine.1 = false :=
  ⟨rfl, rfl, .inr rfl, rfl, by decide, rfl⟩
theorem test_hyp_DrainLosesARejectedFrame :
    let s := answering busy [true, false]
    s.issuer = .poll ∧ s.runState = .running ∧ s.Undisturbed ∧ s.params.syncLag = false ∧ s.txq.count ≠ 0 ∧
      s.txq.rptr < s.txq.cap ∧ (s.txq.slotValue .tx s.txq.rptr).length.toNat ≤ 8 ∧ s.askEngine.1 = true ∧
      s.askEngine.2.askEngine.1 = false :=
  ⟨rfl, rfl, .inr rfl, rfl, by decide, by decide, by decide, rfl, rfl⟩
theorem test_hyp_GetNextFramePopsOne :
    let l := lagging (holding staleEmpty (filled 2 []))
    (busy.issuer = .poll ∧ busy.runState = .running ∧ busy.Undisturbed ∧ busy.params.syncLag = false ∧
      busy.rxq.rptr < busy.rxq.cap ∧ busy.rxq.count ≠ 0) ∧
    (running.Undisturbed ∧ running.rxq.rptr < running.rxq.cap ∧ running.rxq.count = 0) ∧
    l.issuer = .poll ∧ l.runState = .running ∧ l.Undisturbed ∧ l.params.syncLag = true ∧ l.rxq.Inv true :=
  ⟨⟨rfl, rfl, .inr rfl, rfl, by decide, by decide⟩, ⟨.inr rfl, by decide, rfl⟩, rfl, rfl, .inr rfl, rfl, stale_inv.2⟩
theorem test_hyp_SendDirectPath :
    let s := answering busy [true, true]; let r := answering busy [true, false]
    s.issuer = .poll ∧ s.runState = .running ∧ s.Undisturbed ∧ r.Undisturbed ∧ frameD.wf = true ∧
      (fr 0 8 false false [1, 2, 3, 4, 5, 6, 7, 8]).length.toNat ≤ 8 ∧ s.askEngine.1 = true ∧
      s.askEngine.2.askEngine.1 = true ∧ r.askEngine.1 = true ∧ r.askEngine.2.askEngine.1 = false :=
  ⟨rfl, rfl, .inr rfl, .inr rfl, by decide, by decide, rfl, rfl, rfl, rfl⟩
theorem test_hyp_SendQueuedPath :
    let s := answering busy [false]; let r := answering (holding (filled 4 []) (filled 2 [frameA, frameB])) [false]
    let l := answering (lagging (holding (filled 4 []) staleFull)) [false]
    (s.issuer = .poll ∧ s.runState = .running ∧ s.Undisturbed ∧ s.params.syncLag = false ∧ frameD.length.toNat ≤ 8 ∧
      s.txq.wptr < s.txq.cap ∧ s.askEngine.1 = false ∧ s.txq.count ≠ s.txq.cap) ∧
    (r.Undisturbed ∧ r.txq.wptr < r.txq.cap ∧ r.askEngine.1 = false ∧ r.txq.count = r.txq.cap) ∧
    l.issuer = .poll ∧ l.runState = .running ∧ l.Undisturbed ∧ l.params.syncLag = true ∧ l.txq.Inv true ∧
      l.askEngine.1 = false :=
  ⟨⟨rfl, rfl, .inr rfl, rfl, by decide, by decide, rfl, by decide⟩, ⟨.inr rfl, by decide, rfl, rfl⟩, rfl, rfl, .inr rfl,
    rfl, stale_inv.1, rfl⟩
theorem test_hyp_SendHasExactlyOneOutcome :
    (∃ t, exec (.send frameD) (answering busy [true, false]) = .next t) ∧
      (∃ t, exec (.send frameD) (answering busy [false]) = .next t) := ⟨⟨_, rfl⟩, ⟨_, rfl⟩⟩
theorem test_hyp_LogGrowsWithFramesSent :
    (∃ t, exec .available (answering busy [true, true]) = .next t) ∧ (∃ t, exec .reset busy = .next t) :=
  ⟨⟨_, rfl⟩, ⟨_, rfl⟩⟩
/-- With nothing coming, and with a NOTIFY_RX that runs in. -/
theorem test_hyp_ResetReinitialises :
    busy.issuer = .poll ∧ busy.runState = .running ∧ busy.arrivals = [] ∧
      (∃ t, exec .reset (arriving busy [.rxComplete (wm 1 0 [])]) = .next t ∧ t.rxq.count = 1) :=
  ⟨rfl, rfl, rfl, _, rfl, rfl⟩
theorem test_hyp_StopThenBeginIsReset : busy.issuer = .poll ∧ busy.runState = .running := by decide
theorem test_hyp_StopKeepsQueuesAndCounters :
    busy.issuer = .poll ∧ busy.runState = .running ∧ stopped.issuer = .poll ∧ stopped.runState = .stopped := by decide
theorem test_hyp_CountReadsGiveTheStatistics : busy.issuer = .poll ∧ stopped.issuer = .poll := by decide
theorem test_hyp_NotifyRxQueuesTheDecodedFrame :
    let s := byNotify busy; let r := byNotify (holding wrapped (filled 2 []))
    let l := byNotify (lagging (holding staleFull (filled 2 [])))
    (s.issuer = .notify ∧ s.runState = .running ∧ s.params.syncLag = false ∧ s.rxq.wptr < s.rxq.cap ∧
      s.rxq.count ≠ s.rxq.cap) ∧
    (r.issuer = .notify ∧ r.runState = .running ∧ r.params.syncLag = false ∧ r.rxq.wptr < r.rxq.cap ∧
      r.rxq.count = r.rxq.cap) ∧
    l.issuer = .notify ∧ l.runState = .running ∧ l.params.syncLag = true ∧ l.rxq.Inv true :=
  ⟨by decide, by decide, rfl, rfl, rfl, stale_inv.1⟩
theorem test_hyp_NotifyTxAndErrEffects : (byNotify busy).issuer = .notify ∧ (byNotify busy).runState = .running := by decide
theorem test_hyp_ContextsAreEnforced : busy.issuer = .poll ∧ (byNotify busy).issuer = .notify := by decide
theorem test_hyp_OperationsInPlaceComplete :
    busy.Inv ∧ (permitted busy.issuer .available = true ∧ busy.InPlace .available) ∧
      (permitted busy.issuer (.send frameD) = true ∧ busy.InPlace (.send frameD)) ∧
      (permitted busy.issuer (.clear .rx) = true ∧ busy.InPlace (.clear .rx)) ∧ (lagging busy).Inv :=
  ⟨busy_inv, ⟨rfl, rfl, by decide⟩, ⟨rfl, rfl, by decide⟩, ⟨rfl, .inr (.inr rfl)⟩, lagging_busy_inv⟩
theorem test_hyp_RunStateTransitions :
    (∃ t, exec .beginRun stopped = .next t) ∧ (∃ t, exec .stop busy = .next t) ∧ (∃ t, exec .reset busy = .next t) ∧
      (∃ t, exec .getNextFrame busy = .next t) := ⟨⟨_, rfl⟩, ⟨_, rfl⟩, ⟨_, rfl⟩, ⟨_, rfl⟩⟩
theorem test_hyp_ConfigurationNeverChanges : ∃ t, exec .reset busy = .next t := ⟨_, rfl⟩
theorem test_hyp_ReadsAndCodecWriteNothing :
    busy.params.syncLag = false ∧ ∃ t, exec (.encode frameA) busy = .next t := ⟨rfl, _, rfl⟩
theorem test_hyp_NotifyTouchesOnlyItsState :
    (byNotify busy).issuer = .notify ∧ (∃ t, exec (.notifyRx (wm 1 0 [])) (byNotify busy) = .next t) ∧
      (∃ t, exec (.tryPop .tx) (byNotify busy) = .next t) := ⟨rfl, ⟨_, rfl⟩, ⟨_, rfl⟩⟩
theorem test_hyp_PollTouchesOnlyItsState :
    busy.issuer = .poll ∧ busy.arrivals = [] ∧ (∃ t, exec .getNextFrame busy = .next t) ∧
      (∃ t, exec .reset busy = .next t) := ⟨rfl, rfl, ⟨_, rfl⟩, ⟨_, rfl⟩⟩
theorem test_hyp_NotificationsDoNotDisturbTransmission :
    let s := arriving (answering busy [true, true]) [.rxComplete (wm 0x123 0 []), .error (wm 0 0 [])]
    s.params.syncLag = false ∧ (∃ t, exec .available s = .next t) ∧ (∃ u, exec .available { s with arrivals := [] } = .next u) ∧
      (∃ t, exec (.send frameD) s = .next t) ∧ (∃ u, exec (.send frameD) { s with arrivals := [] } = .next u) :=
  ⟨rfl, ⟨_, rfl⟩, ⟨_, rfl⟩, ⟨_, rfl⟩, ⟨_, rfl⟩⟩
theorem test_hyp_PreemptionEqualsRunningBefore :
    busy.issuer = .poll ∧ busy.runState = .running ∧ busy.started.isSome = true ∧ frameD.length.toNat ≤ 8 := by decide
theorem test_hyp_TrueFromAvailableStaysGood :
    let s := answering busy [false]
    s.Inv ∧ ∃ t u, exec .available s = .next t ∧ t.result = .bool true ∧
      t.serveAll [.rxComplete (wm 0x123 0 []), .error (wm 0 0 [])] = .next u :=
  ⟨⟨filled_inv.1, filled_inv.2.1, by decide, by decide, by decide⟩, _, _, rfl, rfl, rfl⟩
/-- Instance 1 of two performs a step. -/
theorem test_hyp_InstancesShareNothing : ∃ b, stepInstance 1 [State.reset, busy] = .next b := ⟨_, rfl⟩

end Sys2Proof.Tests
end

/-! PROOF. O51: no operation in its place is stuck. The parts of the Transport's operations answer and keep what the next
part needs; the operations are then chained from them. -/
namespace Sys2Proof.Machine

/-! ### Parts that answer -/

/-- The part answers a value, and `P` holds of it. -/
def Answers {α : Type} (o : Res α) (P : α → Prop) : Prop := ∃ a, o = .next a ∧ P a

/-- A sequence answers when its first part does and, from what that part leaves, so does the rest. -/
theorem Answers.andThen_answers {α β : Type} {o : Res α} {k : α → Res β} {P : α → Prop}
    (h : Answers o P) (hk : ∀ a, P a → ∃ b, k a = .next b) : ∃ b, andThen o k = .next b := by
  obtain ⟨a, rfl, ha⟩ := h
  exact hk a ha

theorem withContext_answers {i : Instr} {s : State} {k : Res State} (hp : permitted s.issuer i = true)
    (h : ∃ t, k = .next t) : ∃ t, withContext i s k = .next t :=
  h.imp fun _ ht => withContext_eq_next.2 ⟨hp, ht⟩

theorem whenRunning_answers {s : State} {k : Res State} (hr : s.runState = .running) (h : ∃ t, k = .next t) :
    ∃ t, whenRunning s k = .next t :=
  h.imp fun _ ht => whenRunning_eq_next.2 ⟨hr, ht⟩

theorem whenNotifiable_answers {s : State} {k : Res State} (hr : s.runState = .running) (h : ∃ t, k = .next t) :
    ∃ t, whenNotifiable s k = .next t :=
  h.imp fun _ ht => whenNotifiable_eq_next.2 ⟨hr, ht⟩

theorem lengthValid_iff {f : FrameRecord} : f.lengthValid = true ↔ f.length.toNat ≤ 8 := decide_eq_true_iff

/-! ### The shared operations, from both queues' invariants -/

theorem State.Inv.queuesInv {s : State} (h : s.Inv) : s.QueuesInv := ⟨h.rx, h.tx⟩

theorem State.QueuesInv.queue {s : State} (h : s.QueuesInv) (sel : QueueSel) : (s.queue sel).Inv s.params.syncLag := by
  cases sel
  · exact h.1
  · exact h.2

theorem State.QueuesInv.preempt_answers {s : State} (h : s.QueuesInv) : Answers s.preempt State.QueuesInv :=
  (State.preempt_answers h.1).imp fun _ ht => ⟨ht, h.preempt ht⟩

theorem State.QueuesInv.tryPush_answers {s : State} (h : s.QueuesInv) (sel : QueueSel) (f : FrameRecord) :
    ∃ b p, s.tryPush sel f = .next (b, s.drawPick.2.setQueue sel p) := by
  obtain ⟨b, p, hp⟩ := Queue.tryPush_answers s.params.syncLag s.drawPick.1 f (h.queue sel).wptrLt
  exact ⟨b, p, by simp [State.tryPush, hp]⟩

/-- Whatever record TXQ takes, RXQ keeps its invariant, which is what notifications need. -/
theorem State.QueuesInv.tryPush_tx_answers {s : State} (h : s.QueuesInv) (f : FrameRecord) :
    Answers (s.tryPush .tx f) fun r => r.2.rxq.Inv r.2.params.syncLag := by
  obtain ⟨b, p, hp⟩ := h.tryPush_answers .tx f
  exact ⟨_, hp, by simpa using h.1⟩

theorem State.QueuesInv.tryPop_answers {s : State} (h : s.QueuesInv) (sel : QueueSel) :
    Answers (s.tryPop sel) fun r => r.2.QueuesInv := by
  obtain ⟨r, p, hp⟩ := Queue.tryPop_answers sel s.params.syncLag s.drawPick.1 (h.queue sel).rptrLt
  have hs : s.tryPop sel = .next (r, s.drawPick.2.setQueue sel p) := by simp [State.tryPop, hp]
  exact ⟨_, hs, h.tryPop hs⟩

theorem State.QueuesInv.submit_answers {s : State} {f : FrameRecord} (h : s.QueuesInv) (hf : f.length.toNat ≤ 8) :
    Answers (s.submit f) fun r => r.2.QueuesInv :=
  have hs := State.submit_eq (s := s) (lengthValid_iff.2 hf)
  ⟨_, hs, h.submit hs⟩

theorem State.QueuesInv.beginSteps_answers {s : State} (h : s.QueuesInv) : ∃ t, s.beginSteps = .next t :=
  have hc : ((s.clearQueue .rx).clearQueue .tx).QueuesInv := (h.clearQueue .rx).clearQueue .tx
  Answers.andThen_answers (State.QueuesInv.preempt_answers hc) fun _ _ => ⟨_, rfl⟩

/-! ### The drain -/

/-- What the drain needs to complete: both queues' invariants, and no waiting frame that ENCODE refuses (rule R122 (d)). -/
def State.Drainable (s : State) : Prop := s.QueuesInv ∧ ∀ f ∈ s.waiting, f.length.toNat ≤ 8

/-- A part that moves no record of TXQ keeps the state drainable. -/
theorem State.Drainable.of_txq {s t : State} (h : s.Drainable) (ht : t.QueuesInv) (e : t.txq = s.txq) : t.Drainable := by
  refine ⟨ht, ?_⟩
  rw [State.waiting, e]
  exact h.2

theorem State.Drainable.testEmpty {s : State} (h : s.Drainable) : (s.testEmpty .tx).2.Drainable := by
  refine ⟨h.1.testEmpty .tx, ?_⟩
  simpa [State.testEmpty, State.flagQueue, State.waiting] using h.2

theorem State.Drainable.askEngine {s : State} (h : s.Drainable) : s.askEngine.2.Drainable :=
  h.of_txq h.1.askEngine s.askEngine_txq

theorem State.Drainable.preempt_answers {s : State} (h : s.Drainable) : Answers s.preempt State.Drainable :=
  (State.preempt_answers h.1.1).imp fun _ ht => ⟨ht, h.of_txq (h.1.preempt ht) (State.preempt_notifiedTo ht).txq⟩

/-- A TRY_POP takes the record it answers off the front of the queued ones, and nothing else (rules R26, R101). -/
theorem Queue.Inv.tryPop_contents {sel : QueueSel} {lag : Bool} {pick : Nat} {q : Queue} {r : Option FrameRecord} {p : Queue}
    (h : q.Inv lag) (hp : q.tryPop sel lag pick = .next (r, p)) : q.contents sel = r.toList ++ p.contents sel := by
  rcases Queue.tryPop_cases hp with ⟨rfl, -, rfl⟩ | ⟨rfl, hq, -, rfl⟩
  · simp
  · have hr := h.refreshConsumer pick
    have hc := Queue.contents_afterPop sel hr (hr.queued hq)
    rwa [Queue.contents_refreshConsumer, show (q.refreshConsumer lag pick).slotValue sel
      (q.refreshConsumer lag pick).rptr = q.slotValue sel q.rptr by rw [q.refreshConsumer_eq lag pick]; rfl] at hc

theorem State.Drainable.tryPop_answers {s : State} (h : s.Drainable) :
    Answers (s.tryPop .tx) fun r => r.2.Drainable ∧ ∀ f ∈ r.1, f.length.toNat ≤ 8 := by
  obtain ⟨⟨r, t⟩, hs, ht⟩ := h.1.tryPop_answers .tx
  obtain ⟨p, hp, rfl⟩ := State.tryPop_cases hs
  have hc : s.waiting = r.toList ++ p.contents .tx := h.1.2.tryPop_contents hp
  have hw := h.2
  rw [hc] at hw
  exact ⟨_, hs, ⟨ht, fun f hf => hw f (List.mem_append_right _ hf)⟩,
    fun f hf => hw f (List.mem_append_left _ (Option.mem_toList.2 hf))⟩

theorem State.Drainable.submit_answers {s : State} {f : FrameRecord} (h : s.Drainable) (hf : f.length.toNat ≤ 8) :
    Answers (s.submit f) fun r => r.2.Drainable := by
  obtain ⟨r, hs, hr⟩ := h.1.submit_answers hf
  exact ⟨r, hs, h.of_txq hr (State.submit_queues hs).2.1⟩

/-- One turn completes when the turns after it do. -/
theorem State.Drainable.drainTurn_answers {again : State → Res (Bool × State)} {s : State} {f : FrameRecord}
    (h : s.Drainable) (hf : f.length.toNat ≤ 8) (hagain : ∀ t : State, t.Drainable → ∃ d, again t = .next d) :
    ∃ d, s.drainTurn again f = .next d := by
  refine (h.submit_answers hf).andThen_answers fun r hr => hr.preempt_answers.andThen_answers fun t ht => ?_
  cases r.1 with
  | true => exact (State.Drainable.preempt_answers (s := t.countSent) ht).andThen_answers hagain
  | false => exact ⟨_, rfl⟩

/-- The drain completes, however many turns it takes (rule R122 (a)). -/
theorem State.Drainable.drain_answers {fuel : Nat} {s : State} (h : s.Drainable) : ∃ d, s.drain fuel = .next d := by
  induction fuel generalizing s with
  | zero => exact ⟨_, rfl⟩
  | succ fuel ih =>
    unfold State.drain
    split
    · exact ⟨_, rfl⟩
    · refine h.testEmpty.preempt_answers.andThen_answers fun a ha => ?_
      split
      · refine ha.askEngine.preempt_answers.andThen_answers fun b hb => ?_
        refine hb.tryPop_answers.andThen_answers fun r ⟨hr, hlen⟩ => ?_
        refine hr.preempt_answers.andThen_answers fun c hc => ?_
        cases hpop : r.1 with
        | none => exact ⟨_, rfl⟩
        | some f => exact hc.drainTurn_answers (hlen f hpop) fun _ => ih
      · exact ⟨_, rfl⟩

/-! ### The operations that are more than one part -/

theorem execEncode_answers {f : FrameRecord} {s : State} (hp : permitted s.issuer (.encode f) = true)
    (hf : f.length.toNat ≤ 8) : ∃ t, execEncode f s = .next t :=
  withContext_answers hp ⟨_, by rw [State.encodeOp, if_pos (lengthValid_iff.2 hf)]; rfl⟩

theorem execTryPush_answers {q : QueueSel} {f : FrameRecord} {s : State} (hi : s.QueuesInv)
    (hp : permitted s.issuer (.tryPush q f) = true) : ∃ t, execTryPush q f s = .next t := by
  obtain ⟨b, p, hs⟩ := hi.tryPush_answers q f
  exact withContext_answers hp ⟨_, by rw [hs]; rfl⟩

theorem execTryPop_answers {q : QueueSel} {s : State} (hi : s.QueuesInv) (hp : permitted s.issuer (.tryPop q) = true) :
    ∃ t, execTryPop q s = .next t :=
  withContext_answers hp ((hi.tryPop_answers q).andThen_answers fun _ _ => ⟨_, rfl⟩)

/-- A CLEAR in its place is not overlapped by a NOTIFY_RX (rules R104, R191). -/
theorem clearOverlapped_eq_false {q : QueueSel} {s : State} (h : q = .tx ∨ s.started = none ∨ rxDue s.arrivals = false) :
    clearOverlapped q s = false := by
  rcases h with rfl | h | h
  · rfl
  · simp [clearOverlapped, h]
  · simp [clearOverlapped, h]

theorem execClear_answers {q : QueueSel} {s : State} (hi : s.QueuesInv) (hp : permitted s.issuer (.clear q) = true)
    (h : s.InPlace (.clear q)) : ∃ t, execClear q s = .next t := by
  refine withContext_answers hp ?_
  rw [clearOverlapped_eq_false h]
  exact (hi.clearQueue q).preempt_answers.andThen_answers fun _ _ => ⟨_, rfl⟩

theorem State.QueuesInv.notifyOp_answers {s : State} (h : s.QueuesInv) (n : Notification) :
    ∃ t, s.notifyOp n = .next t := by
  obtain ⟨c, t, hn⟩ := State.notify_answers n h.1.wptrLt
  exact ⟨_, by rw [State.notifyOp, hn]; rfl⟩

theorem execBeginRun_answers {s : State} (hi : s.QueuesInv) (hp : permitted s.issuer .beginRun = true)
    (hr : s.runState = .stopped) : ∃ t, execBeginRun s = .next t := by
  obtain ⟨t, ht⟩ := hi.beginSteps_answers
  exact withContext_answers hp ⟨_, by rw [hr, ht]; rfl⟩

theorem execAvailable_answers {s : State} (hi : s.QueuesInv) (hp : permitted s.issuer .available = true)
    (h : s.InPlace .available) : ∃ t, execAvailable s = .next t := by
  obtain ⟨hr, hw⟩ := h
  obtain ⟨d, hd⟩ := State.Drainable.drain_answers (fuel := s.drainFuel) ⟨hi, hw⟩
  refine withContext_answers hp (whenRunning_answers hr ?_)
  rw [hd]
  exact (hi.drain hd).preempt_answers.andThen_answers fun _ _ => ⟨_, rfl⟩

theorem execGetNextFrame_answers {s : State} (hi : s.QueuesInv) (hp : permitted s.issuer .getNextFrame = true)
    (hr : s.runState = .running) : ∃ t, execGetNextFrame s = .next t := by
  refine withContext_answers hp (whenRunning_answers hr ?_)
  refine (hi.tryPop_answers .rx).andThen_answers fun r hq => hq.preempt_answers.andThen_answers fun t _ => ?_
  cases r.1 <;> exact ⟨_, rfl⟩

theorem State.QueuesInv.sendDirect_answers {s : State} {f : FrameRecord} (h : s.QueuesInv) (hf : f.length.toNat ≤ 8) :
    ∃ t, s.sendDirect f = .next t := by
  refine (h.submit_answers hf).andThen_answers fun r hr => hr.preempt_answers.andThen_answers fun t _ => ?_
  cases r.1 <;> exact ⟨_, rfl⟩

theorem State.QueuesInv.sendQueued_answers {s : State} {f : FrameRecord} (h : s.QueuesInv) :
    ∃ t, s.sendQueued f = .next t := by
  refine (h.tryPush_tx_answers f).andThen_answers fun r hr => ?_
  obtain ⟨t, ht⟩ := State.preempt_answers hr
  rw [ht]
  cases r.1 <;> exact ⟨_, rfl⟩

theorem execSend_answers {f : FrameRecord} {s : State} (hi : s.QueuesInv) (hp : permitted s.issuer (.send f) = true)
    (h : s.InPlace (.send f)) : ∃ t, execSend f s = .next t := by
  obtain ⟨hr, hf⟩ := h
  refine withContext_answers hp (whenRunning_answers hr ?_)
  rw [if_pos (lengthValid_iff.2 hf)]
  refine hi.preempt_answers.andThen_answers fun a ha => ha.askEngine.preempt_answers.andThen_answers fun b hb => ?_
  cases a.askEngine.1
  · exact hb.sendQueued_answers
  · exact hb.sendDirect_answers hf

theorem execReset_answers {s : State} (hi : s.QueuesInv) (hp : permitted s.issuer .reset = true)
    (hr : s.runState = .running) : ∃ t, execReset s = .next t := by
  have hc : State.QueuesInv { ((State.clearQueue { s.stopEngine with runState := .stopped } .rx).clearQueue .tx) with
    engine := .present } := ⟨hi.1.clear, hi.2.clear⟩
  obtain ⟨t, ht⟩ := hc.beginSteps_answers
  exact withContext_answers hp (whenRunning_answers hr ⟨_, by rw [ht]; rfl⟩)

/-- Settles O51: an operation of several parts by its own lemma; any other answers in one part (rules R12, R105). -/
theorem operationsInPlaceComplete : Obligations.OperationsInPlaceComplete := by
  unfold Obligations.OperationsInPlaceComplete
  intro i s hs hp h
  have hi := hs.queuesInv
  cases i with
  | encode f => exact execEncode_answers hp h
  | tryPush q f => exact execTryPush_answers hi hp
  | tryPop q => exact execTryPop_answers hi hp
  | clear q => exact execClear_answers hi hp h
  | beginRun => exact execBeginRun_answers hi hp h
  | available => exact execAvailable_answers hi hp h
  | getNextFrame => exact execGetNextFrame_answers hi hp h
  | send f => exact execSend_answers hi hp h
  | reset => exact execReset_answers hi hp h
  | stop => exact withContext_answers hp (whenRunning_answers h ⟨_, rfl⟩)
  | notifyRx w => exact withContext_answers hp (whenNotifiable_answers h (hi.notifyOp_answers _))
  | notifyTx w => exact withContext_answers hp (whenNotifiable_answers h (hi.notifyOp_answers _))
  | notifyErr w => exact withContext_answers hp (whenNotifiable_answers h (hi.notifyOp_answers _))
  | decode _ | isEmpty _ | isFull _ | rdPushed _ | rdDropped _ | receivedCount | sentCount | sendErrorCount
  | wireidStdData _ | wireidStdRemote _ | wireidExtData _ | wireidExtRemote _ =>
    exact withContext_answers hp ⟨_, rfl⟩

end Sys2Proof.Machine

/-! PROOF. O8: an instruction that decodes is well formed, because a Frame Record read off the bus carries as many payload
bytes as its length field says. -/
namespace Sys2Proof

theorem unpackFrame_wf (v : BitVec 102) : (unpackFrame v).wf = true := by
  simp only [unpackFrame, FrameRecord.wf, beq_iff_eq, List.length_take]
  exact Nat.min_eq_left (Nat.min_le_right _ _)

theorem withoutQueue_eq_ok {op : Nat} {q : Bool} {i j : Instr} : withoutQueue op q i = .ok j ↔ q = false ∧ i = j := by
  cases q <;> simp [withoutQueue]

/-- The codes with a Frame Record operand are 0, 2 and 12; the others give an instruction that is well formed as it stands,
or none (rule R76). -/
theorem decodeOp_wf {op : Nat} {q : Bool} {v : BitVec 102} {i : Instr} (h : decodeOp op q v = .ok i) : i.wf = true := by
  unfold decodeOp at h
  split at h
  case h_1 | h_13 => obtain ⟨-, rfl⟩ := withoutQueue_eq_ok.1 h; exact unpackFrame_wf v
  case h_3 => cases h; exact unpackFrame_wf v
  case h_4 | h_5 | h_6 | h_7 | h_8 | h_9 => cases h; rfl
  case h_22 => cases h
  all_goals obtain ⟨-, rfl⟩ := withoutQueue_eq_ok.1 h; rfl

theorem decodeWireId_wf (id : Word) : (decodeWireId id).wf = true := by
  unfold decodeWireId; dsimp only; split <;> rfl

/-- Settles O8, by the two kinds of word an agent presents. -/
theorem decodedInstructionsAreWellFormed : Obligations.DecodedInstructionsAreWellFormed := by
  unfold Obligations.DecodedInstructionsAreWellFormed
  intro p i h
  cases p with
  | command cmd v => exact decodeOp_wf h
  | wireId id => cases h; exact decodeWireId_wf id

end Sys2Proof

namespace Sys2Proof

/-- The operations that return a value they read and write no register (rules R65, R94; log entry 12). -/
def Instr.isRead : Instr → Bool
  | .decode _ | .rdPushed _ | .rdDropped _ | .receivedCount | .sentCount | .sendErrorCount | .wireidStdData _
  | .wireidStdRemote _ | .wireidExtData _ | .wireidExtRemote _ => true
  | _ => false

end Sys2Proof

/-! PROOF. O2, O3, O4: the machine's invariant holds at power-on, every step keeps it, and from it no step faults. Both are
one induction over the parts of the operations, with `Ends False`. -/
namespace Sys2Proof.Machine

/-! ### Operations that only return a value -/

theorem exec_isRead {i : Instr} (s : State) (h : i.isRead = true) :
    ∃ r, exec i s = withContext i s (.next (s.finish r none)) := by
  cases i with
  | decode _ | rdPushed _ | rdDropped _ | receivedCount | sentCount | sendErrorCount | wireidStdData _
  | wireidStdRemote _ | wireidExtData _ | wireidExtRemote _ => exact ⟨_, rfl⟩
  | _ => cases h

/-! ### How a part of an operation can end -/

/-- Where the part answers a value, `P` holds of it; where it faults, `faults` holds. With `False` for `faults` it does not
fault, with `True` nothing is said of a fault. -/
def Ends {α : Type} (faults : Prop) (o : Res α) (P : α → Prop) : Prop :=
  match o with
  | .next a => P a
  | .fault _ => faults
  | .refused _ => True

section
variable {α β : Type} {faults : Prop} {o : Res α} {P : α → Prop} {i : Instr} {s : State} {k : Res State} {R : State → Prop}

theorem Ends.next {a : α} (h : P a) : Ends faults (.next a) P := h

theorem Ends.refused (r : Refusal) : Ends faults (.refused r) P := trivial

theorem Answers.ends (h : Answers o P) : Ends faults o P := by
  obtain ⟨a, rfl, ha⟩ := h
  exact ha

theorem Ends.andThen {k : α → Res β} {Q : β → Prop} (h : Ends faults o P) (hk : ∀ a, P a → Ends faults (k a) Q) :
    Ends faults (andThen o k) Q := by
  cases o with
  | next a => exact hk a h
  | fault e => exact h
  | refused r => trivial

theorem Ends.of_next {a : α} (h : Ends faults o P) (ho : o = .next a) : P a := by
  subst ho
  exact h

theorem Ends.ne_fault (h : Ends False o P) (e : Fault) : o ≠ .fault e := by
  rintro rfl
  exact h

theorem ends_of_next (h : ∀ a, o = .next a → P a) : Ends True o P := by
  cases o with
  | next a => exact h a rfl
  | fault e => trivial
  | refused r => trivial

theorem withContext_ends (h : Ends faults k R) : Ends faults (withContext i s k) R := by
  unfold withContext
  split
  · exact h
  · trivial

theorem whenRunning_ends (h : Ends faults k R) : Ends faults (whenRunning s k) R := by
  unfold whenRunning
  split
  · exact h
  · trivial

theorem whenNotifiable_ends (h : Ends faults k R) : Ends faults (whenNotifiable s k) R := by
  unfold whenNotifiable
  split
  · exact h
  · trivial

end

/-! ### What every part of the sending operations keeps, AVAILABLE and SEND keep -/

/-- `P` is kept by the parts AVAILABLE and SEND's direct path are made of (rules R122, R124). -/
structure State.KeptBySending (faults : Prop) (P : State → Prop) : Prop where
  preempt : ∀ {s : State}, P s → Ends faults s.preempt P
  askEngine : ∀ {s : State}, P s → P s.askEngine.2
  testEmpty : ∀ {s : State} (sel : QueueSel), P s → P (s.testEmpty sel).2
  tryPop : ∀ {s : State}, P s → Ends faults (s.tryPop .tx) fun r => P r.2
  submit : ∀ {s : State} (f : FrameRecord), P s → Ends faults (s.submit f) fun r => P r.2
  countSent : ∀ {s : State}, P s → P s.countSent
  countSendError : ∀ {s : State}, P s → P s.countSendError
  finish : ∀ {s : State} (r : Result) (c : Option ErrorClass), P s → P (s.finish r c)

namespace State.KeptBySending
variable {faults : Prop} {P : State → Prop} {s : State} {f : FrameRecord}

theorem drainTurn {again : State → Res (Bool × State)} (k : KeptBySending faults P) (h : P s)
    (hagain : ∀ t, P t → Ends faults (again t) fun d => P d.2) : Ends faults (s.drainTurn again f) fun d => P d.2 := by
  refine (k.submit f h).andThen fun r hr => (k.preempt hr).andThen fun t ht => ?_
  cases r.1 with
  | true => exact (k.preempt (k.countSent ht)).andThen hagain
  | false => exact .next (k.countSendError ht)

theorem drain {fuel : Nat} (k : KeptBySending faults P) (h : P s) : Ends faults (s.drain fuel) fun d => P d.2 := by
  induction fuel generalizing s with
  | zero => exact .next h
  | succ fuel ih =>
    unfold State.drain
    split
    · exact .next (k.testEmpty .tx h)
    · refine (k.preempt (k.testEmpty .tx h)).andThen fun a ha => ?_
      split
      · refine (k.preempt (k.askEngine ha)).andThen fun b hb => (k.tryPop hb).andThen fun r hr => ?_
        refine (k.preempt hr).andThen fun c hc => ?_
        cases r.1 with
        | none => exact .next hc
        | some f => exact k.drainTurn hc fun _ => ih
      · exact .next (k.askEngine ha)

theorem sendDirect (k : KeptBySending faults P) (h : P s) : Ends faults (s.sendDirect f) P := by
  refine (k.submit f h).andThen fun r hr => (k.preempt hr).andThen fun t ht => ?_
  cases r.1 with
  | true => exact .next (k.finish _ _ (k.countSent ht))
  | false => exact .next (k.finish _ _ (k.countSendError ht))

theorem sendQueued (k : KeptBySending faults P) (h : P s)
    (hpush : ∀ {s : State}, P s → Ends faults (s.tryPush .tx f) fun r => P r.2) : Ends faults (s.sendQueued f) P := by
  refine (hpush h).andThen fun r hr => (k.preempt hr).andThen fun t ht => ?_
  cases r.1 with
  | true => exact .next (k.finish _ _ ht)
  | false => exact .next (k.finish _ _ (k.countSendError ht))

theorem available (k : KeptBySending faults P) (h : P s) : Ends faults (execAvailable s) P :=
  withContext_ends <| whenRunning_ends <| (k.drain h).andThen fun _ hd =>
    (k.preempt hd).andThen fun _ ht => .next (k.finish _ _ (k.testEmpty .rx ht))

/-- SEND also needs `P` kept by the TRY_PUSH of its record. -/
theorem send (k : KeptBySending faults P) (h : P s)
    (hpush : ∀ {s : State}, P s → Ends faults (s.tryPush .tx f) fun r => P r.2) : Ends faults (execSend f s) P := by
  refine withContext_ends <| whenRunning_ends ?_
  split
  · refine (k.preempt h).andThen fun a ha => (k.preempt (k.askEngine ha)).andThen fun b hb => ?_
    split
    · exact k.sendDirect hb
    · exact k.sendQueued hb hpush
  · exact .refused _

end State.KeptBySending

/-! ### The parts keep the invariant -/

/-- What sends keeps the invariant, as far as it keeps the queues': it leaves the Engine and the run state alone and accepts
no message of a dlc above 8 (rule R90). -/
theorem State.Inv.sentTo {s t : State} {e : Nat} (h : s.Inv) (hs : s.SentTo t e) (hq : t.QueuesInv) : t.Inv := by
  obtain ⟨r, q, ws, n, a, o, rfl, -, -, -, hws⟩ := hs
  exact ⟨hq.1, hq.2, h.enginePresent, h.startedRunning,
    fun w hw => (List.mem_append.1 hw).elim (h.logDlc w) (hws w)⟩

theorem State.Inv.finish {s : State} (h : s.Inv) (r : Result) (c : Option ErrorClass) : (s.finish r c).Inv := { h with }

theorem State.Inv.take {s : State} (h : s.Inv) (r : Request) (rest : List Request) : (s.take r rest).Inv := { h with }

theorem State.Inv.countSent {s : State} (h : s.Inv) : s.countSent.Inv := { h with }

theorem State.Inv.countSendError {s : State} (h : s.Inv) : s.countSendError.Inv := { h with }

theorem State.Inv.countReceived {s : State} (h : s.Inv) : s.countReceived.Inv := { h with }

/-- A queue replaced by one of the invariant, whatever was drawn. -/
theorem State.Inv.setQueue {s : State} (h : s.Inv) {sel : QueueSel} {q : Queue} (hq : q.Inv s.params.syncLag) :
    (s.drawPick.2.setQueue sel q).Inv := by
  rw [s.drawPick_eq]
  cases sel
  · exact { h with rx := hq }
  · exact { h with tx := hq }

theorem State.Inv.clearQueue {s : State} (h : s.Inv) (sel : QueueSel) : (s.clearQueue sel).Inv := by
  cases sel
  · exact { h with rx := h.rx.clear }
  · exact { h with tx := h.tx.clear }

theorem State.Inv.testEmpty {s : State} (h : s.Inv) (sel : QueueSel) : (s.testEmpty sel).2.Inv :=
  h.setQueue ((h.queuesInv.queue sel).refreshTo _ _)

theorem State.Inv.testFull {s : State} (h : s.Inv) (sel : QueueSel) : (s.testFull sel).2.Inv :=
  h.setQueue ((h.queuesInv.queue sel).refreshTo _ _)

theorem State.Inv.askEngine {s : State} (h : s.Inv) : s.askEngine.2.Inv :=
  h.sentTo s.askEngine_sentTo h.queuesInv.askEngine

theorem State.Inv.preempt_answers {s : State} (h : s.Inv) : Answers s.preempt State.Inv :=
  h.queuesInv.preempt_answers.imp fun _ ⟨ht, hq⟩ => ⟨ht, h.sentTo (State.preempt_notifiedTo ht).sentTo hq⟩

theorem State.Inv.preempt_safe {s : State} (h : s.Inv) : Ends False s.preempt State.Inv := h.preempt_answers.ends

theorem State.Inv.tryPush_safe {s : State} {f : FrameRecord} (h : s.Inv) (sel : QueueSel) (hf : f.wf = true) :
    Ends False (s.tryPush sel f) fun r => r.2.Inv := by
  obtain ⟨b, p, hs⟩ := h.queuesInv.tryPush_answers sel f
  obtain ⟨q, hq, hp⟩ := State.tryPush_cases hs
  rw [hp] at hs
  rw [hs]
  exact .next (h.setQueue ((h.queuesInv.queue sel).tryPush hf hq))

theorem State.Inv.tryPop_safe {s : State} (h : s.Inv) (sel : QueueSel) : Ends False (s.tryPop sel) fun r => r.2.Inv := by
  obtain ⟨⟨r, t⟩, hs, -⟩ := h.queuesInv.tryPop_answers sel
  obtain ⟨q, hq, rfl⟩ := State.tryPop_cases hs
  rw [hs]
  exact .next (h.setQueue ((h.queuesInv.queue sel).tryPop hq))

/-- A record that is too long is refused; the message of any other has its length as dlc (rule R90). -/
theorem State.Inv.submit_safe {s : State} (h : s.Inv) (f : FrameRecord) : Ends False (s.submit f) fun r => r.2.Inv := by
  cases hf : f.lengthValid with
  | false => exact State.submit_refused hf ▸ .refused _
  | true =>
    rw [State.submit_eq hf]
    refine .next { h with logDlc := fun w hw => (List.mem_append.1 hw).elim (h.logDlc w) fun hw => ?_ }
    obtain ⟨-, rfl⟩ : s.askEngine.1 = true ∧ w = s.offered f := by simpa using hw
    exact lengthValid_iff.1 hf

theorem State.Inv.keptBySending : State.KeptBySending False State.Inv where
  preempt h := h.preempt_safe
  askEngine h := h.askEngine
  testEmpty sel h := h.testEmpty sel
  tryPop h := h.tryPop_safe .tx
  submit f h := h.submit_safe f
  countSent h := h.countSent
  countSendError h := h.countSendError
  finish r c h := h.finish r c

theorem State.Inv.notify_answers {s : State} (h : s.Inv) (n : Notification) :
    Answers (s.notify n) fun r => r.2.Inv := by
  obtain ⟨c, t, hn⟩ := State.notify_answers n h.rx.wptrLt
  have ht := State.notify_notifiedTo hn
  refine ⟨_, hn, h.sentTo ht.sentTo ⟨?_, ?_⟩⟩
  · rw [ht.params]; exact State.notify_inv h.rx hn
  · rw [ht.params, ht.txq]; exact h.tx

/-! ### The Transport's operations -/

/-- The state in which BEGIN has just started the Engine (rule R121). -/
def State.begun (s : State) : State :=
  { ((s.clearQueue .rx).clearQueue .tx).zeroCounters with engine := .present }.startEngine

theorem State.beginSteps_eq (s : State) :
    s.beginSteps = andThen s.begun.preempt fun t => .next { t with runState := .running } := rfl

theorem State.NotifiedTo.engine {s t : State} (h : s.NotifiedTo t) : t.engine = s.engine := by
  obtain ⟨q, n, a, ps, k, rfl, -, -⟩ := h; rfl

theorem State.NotifiedTo.started {s t : State} (h : s.NotifiedTo t) : t.started = s.started := by
  obtain ⟨q, n, a, ps, k, rfl, -, -⟩ := h; rfl

theorem State.NotifiedTo.engineLog {s t : State} (h : s.NotifiedTo t) : t.engineLog = s.engineLog := by
  obtain ⟨q, n, a, ps, k, rfl, -, -⟩ := h; rfl

/-- BEGIN's steps end in a state of the invariant wherever the queues start in theirs: the Engine is started before the run
state follows, and only notifications run in between (rule R121). -/
theorem State.QueuesInv.beginSteps_safe {s : State} (h : s.QueuesInv) (hlog : ∀ w ∈ s.engineLog, w.dlc.toNat ≤ 8) :
    Ends False s.beginSteps State.Inv := by
  have hc : s.begun.QueuesInv := (h.clearQueue .rx).clearQueue .tx
  obtain ⟨t, ht, hrx, htx⟩ := hc.preempt_answers
  have hn := State.preempt_notifiedTo ht
  rw [State.beginSteps_eq, ht]
  exact .next ⟨hrx, htx, iff_of_true hn.engine rfl, iff_of_true (hn.started ▸ rfl) rfl, hn.engineLog ▸ hlog⟩

/-! ### The operations -/

theorem exec_isRead_safe {i : Instr} {s : State} (hi : i.isRead = true) (h : s.Inv) : Ends False (exec i s) State.Inv := by
  obtain ⟨r, hr⟩ := exec_isRead s hi
  rw [hr]
  exact withContext_ends (.next (h.finish r none))

theorem execEncode_safe {s : State} (h : s.Inv) (f : FrameRecord) : Ends False (execEncode f s) State.Inv := by
  refine withContext_ends ?_
  unfold State.encodeOp
  split
  · exact .next { h with }
  · exact .refused _

theorem execIsEmpty_safe {s : State} (h : s.Inv) (q : QueueSel) : Ends False (execIsEmpty q s) State.Inv :=
  withContext_ends (.next ((h.testEmpty q).finish _ _))

theorem execIsFull_safe {s : State} (h : s.Inv) (q : QueueSel) : Ends False (execIsFull q s) State.Inv :=
  withContext_ends (.next ((h.testFull q).finish _ _))

theorem execClear_safe {s : State} (h : s.Inv) (q : QueueSel) : Ends False (execClear q s) State.Inv := by
  refine withContext_ends ?_
  split
  · exact .refused _
  · exact (h.clearQueue q).preempt_safe.andThen fun t ht => .next (ht.finish _ _)

theorem execBeginRun_safe {s : State} (h : s.Inv) : Ends False (execBeginRun s) State.Inv := by
  refine withContext_ends ?_
  split
  · exact .refused _
  · exact (h.queuesInv.beginSteps_safe h.logDlc).andThen fun t ht => .next (ht.finish _ _)

theorem execGetNextFrame_safe {s : State} (h : s.Inv) : Ends False (execGetNextFrame s) State.Inv := by
  refine withContext_ends <| whenRunning_ends <| (h.tryPop_safe .rx).andThen fun r hr =>
    hr.preempt_safe.andThen fun t ht => ?_
  cases r.1 with
  | none => exact .next (ht.finish _ _)
  | some f => exact .next (ht.countReceived.finish _ _)

theorem execReset_safe {s : State} (h : s.Inv) : Ends False (execReset s) State.Inv :=
  have hc : State.QueuesInv { ((State.clearQueue { s.stopEngine with runState := .stopped } .rx).clearQueue .tx) with
    engine := .present } := ⟨h.rx.clear, h.tx.clear⟩
  withContext_ends <| whenRunning_ends <| (hc.beginSteps_safe h.logDlc).andThen fun _ ht => .next (ht.finish _ _)

/-- The Engine is discarded and stopped with the run state (rule R129). -/
theorem execStop_safe {s : State} (h : s.Inv) : Ends False (execStop s) State.Inv :=
  withContext_ends <| whenRunning_ends <| .next
    ⟨h.rx, h.tx, iff_of_false nofun nofun, iff_of_false nofun nofun, h.logDlc⟩

theorem State.Inv.notifyOp_safe {s : State} (h : s.Inv) (n : Notification) : Ends False (s.notifyOp n) State.Inv :=
  (h.notify_answers n).ends.andThen fun _ ht => .next (ht.finish _ _)

/-- Every well-formed operation keeps the invariant and does not fault. -/
theorem exec_safe {i : Instr} {s : State} (hi : i.wf = true) (h : s.Inv) : Ends False (exec i s) State.Inv := by
  cases i with
  | encode f => exact execEncode_safe h f
  | tryPush q f => exact withContext_ends ((h.tryPush_safe q hi).andThen fun _ hr => .next (hr.finish _ _))
  | tryPop q => exact withContext_ends ((h.tryPop_safe q).andThen fun _ hr => .next (hr.finish _ _))
  | isEmpty q => exact execIsEmpty_safe h q
  | isFull q => exact execIsFull_safe h q
  | clear q => exact execClear_safe h q
  | beginRun => exact execBeginRun_safe h
  | available => exact State.Inv.keptBySending.available h
  | getNextFrame => exact execGetNextFrame_safe h
  | send f => exact State.Inv.keptBySending.send h fun hs => hs.tryPush_safe .tx hi
  | reset => exact execReset_safe h
  | stop => exact execStop_safe h
  | notifyRx w => exact withContext_ends (whenNotifiable_ends (h.notifyOp_safe _))
  | notifyTx w => exact withContext_ends (whenNotifiable_ends (h.notifyOp_safe _))
  | notifyErr w => exact withContext_ends (whenNotifiable_ends (h.notifyOp_safe _))
  | decode _ | rdPushed _ | rdDropped _ | receivedCount | sentCount | sendErrorCount | wireidStdData _
  | wireidStdRemote _ | wireidExtData _ | wireidExtRemote _ =>
    exact exec_isRead_safe rfl h

/-- A step is a preemption point, a refusal, or an operation that was decoded and so is well formed. -/
theorem step_safe {s : State} (h : s.Inv) : Ends False (step s) State.Inv := by
  unfold step
  split
  · exact h.preempt_safe
  · split
    case h_1 hd => exact exec_safe (decodedInstructionsAreWellFormed _ _ hd) (h.take _ _)
    case h_2 => exact .refused _

/-- Settles O3, part by part of each operation (`exec_safe`). -/
theorem stepKeepsInvariant : Obligations.StepKeepsInvariant := by
  unfold Obligations.StepKeepsInvariant
  intro s t h ht
  exact (step_safe h).of_next ht

/-- Settles O4, by the same induction: each slot index is below the capacity by the invariant. -/
theorem noAccessLeavesTheSlots : Obligations.NoAccessLeavesTheSlots := by
  unfold Obligations.NoAccessLeavesTheSlots
  intro s e h
  exact (step_safe h).ne_fault e

theorem State.powerOn_inv {rxCap txCap : Nat} (cfg : Config.EngineConfig) (params : Config.Params) (hrx : 1 ≤ rxCap)
    (htx : 1 ≤ txCap) : (State.powerOn rxCap txCap cfg params).Inv :=
  ⟨Queue.empty_inv _ hrx, Queue.empty_inv _ htx, iff_of_false nofun nofun, iff_of_false nofun nofun, nofun⟩

/-- Settles O2: both queues start empty and the Engine absent. -/
theorem powerOnMeetsInvariant : Obligations.PowerOnMeetsInvariant := by
  unfold Obligations.PowerOnMeetsInvariant
  exact ⟨fun _ _ cfg params => State.powerOn_inv cfg params, State.powerOn_inv _ _ (by decide) (by decide)⟩

end Sys2Proof.Machine

/-! PROOF. O21, O23, O26, O60: the flags without SYNC_LAG, a queue as a FIFO, and the independence of the instances. -/
namespace Sys2Proof.Machine

/-- Without SYNC_LAG the flag test is the count's, and it writes nothing (rules R60, R65). -/
theorem execIsEmpty_exact {s : State} (q : QueueSel) (h : s.params.syncLag = false) :
    execIsEmpty q s = .next (s.finish (.bool ((s.queue q).count == 0)) none) := by
  simp [execIsEmpty, withContext, permitted, State.testEmpty_exact q h]

theorem execIsFull_exact {s : State} (q : QueueSel) (h : s.params.syncLag = false) :
    execIsFull q s = .next (s.finish (.bool ((s.queue q).count == (s.queue q).cap)) none) := by
  simp [execIsFull, withContext, permitted, State.testFull_exact q h]

/-- Settles O21: either context may ask, and no copy is drawn. -/
theorem flagsReadTheOccupancy : Obligations.FlagsReadTheOccupancy := by
  unfold Obligations.FlagsReadTheOccupancy
  intro s q h
  exact ⟨execIsEmpty_exact q h, execIsFull_exact q h⟩

/-- Settles O23: the count is at most a capacity of at least 1. -/
theorem flagsExcludeEachOther : Obligations.FlagsExcludeEachOther := by
  unfold Obligations.FlagsExcludeEachOther
  intro q h
  have hpos := h.capPos
  have hle := h.countLe
  simp only [Queue.emptyFlag, Queue.fullFlag, Bool.false_eq_true, if_false]
  refine ⟨?_, fun hone => ?_⟩
  · rw [Bool.and_eq_false_iff, beq_eq_false_iff_ne, beq_eq_false_iff_ne]; omega
  · rw [Bool.eq_iff_iff, Bool.not_eq_true', beq_eq_false_iff_ne, beq_iff_eq]; omega

/-- A TRY_PUSH appends its record to the queued ones exactly when it succeeds (rules R26, R100). -/
theorem Queue.Inv.tryPush_contents {lag : Bool} {pick : Nat} {q : Queue} {f : FrameRecord} {b : Bool} {p : Queue}
    (sel : QueueSel) (h : q.Inv lag) (hp : q.tryPush lag pick f = .next (b, p)) :
    p.contents sel = q.contents sel ++ if b then [f] else [] := by
  have e := q.refreshProducer_eq lag pick
  rcases Queue.tryPush_cases hp with ⟨rfl, -, rfl⟩ | ⟨rfl, hroom, -, rfl⟩
  · exact (Queue.contents_refreshProducer sel lag pick q).trans (List.append_nil _).symm
  · have hr := h.refreshProducer pick
    have hc := Queue.contents_afterPush sel f hr (hr.room hroom)
    rw [Queue.contents_refreshProducer] at hc
    rw [e] at hc ⊢; exact hc

theorem Queue.contents_clear (sel : QueueSel) (q : Queue) : q.clear.contents sel = [] := rfl

/-- Settles O26, from the ring law of the queue's invariant. -/
theorem queueIsFifo : Obligations.QueueIsFifo := by
  unfold Obligations.QueueIsFifo
  intro sel lag pick q h
  refine ⟨fun f => ?_, ?_, q.contents_clear sel⟩
  · obtain ⟨b, p, hp⟩ := Queue.tryPush_answers lag pick f h.wptrLt
    exact ⟨b, p, hp, h.tryPush_contents sel hp⟩
  · obtain ⟨r, p, hp⟩ := Queue.tryPop_answers sel lag pick h.rptrLt
    exact ⟨r, p, hp, (h.tryPop_contents hp).symm⟩

/-- A step of the instances is the step of the one its handle names, or reaches none where the number is not used. -/
theorem stepInstance_cases {k : Nat} {a b : Instances} (h : stepInstance k a = .next b) :
    (∃ s t, a[k]? = some s ∧ step s = .next t ∧ b = a.set k t) ∨ (a[k]? = none ∧ b = a) := by
  unfold stepInstance at h
  split at h
  case h_1 s hs =>
    obtain ⟨t, ht, h⟩ := andThen_eq_next.1 h
    exact .inl ⟨s, t, hs, ht, (Host.Outcome.next.inj h).symm⟩
  case h_2 hs => exact .inr ⟨hs, (Host.Outcome.next.inj h).symm⟩

/-- Settles O60: the list changes at place `k` alone. -/
theorem instancesShareNothing : Obligations.InstancesShareNothing := by
  unfold Obligations.InstancesShareNothing
  intro k a b h
  rcases stepInstance_cases h with ⟨s, t, hs, ht, rfl⟩ | ⟨hs, rfl⟩
  · have hk : k < a.length := (List.getElem?_eq_some_iff.1 hs).1
    refine ⟨List.length_set, fun j hj => List.getElem?_set_ne hj.symm, fun s' hs' => ⟨t, ?_, ?_⟩⟩
    · rw [hs] at hs'; cases hs'; exact ht
    · exact List.getElem?_set_self hk
  · exact ⟨rfl, fun _ _ => rfl, fun s hs' => by rw [hs] at hs'; cases hs'⟩

end Sys2Proof.Machine

/-! PROOF. O43, O52, O53, O55, O56: what every operation leaves unchanged. `State.Effect` says once what an operation that
answers did to the state; each statement is then read off its few forms. -/
namespace Sys2Proof.Machine

/-! ### What sending leaves of RXQ while no notification comes -/

/-- From `s` to `t` neither RXQ's write side nor the bus error counter moved, and no notification is coming (rule R39). -/
structure State.ReceptionKept (s t : State) : Prop where
  slots : t.rxq.slots = s.rxq.slots
  wptr : t.rxq.wptr = s.rxq.wptr
  pushed : t.rxq.pushed = s.rxq.pushed
  dropped : t.rxq.dropped = s.rxq.dropped
  busErrors : t.busErrors = s.busErrors
  arrivals : t.arrivals = []

theorem State.ReceptionKept.refl {s : State} (h : s.arrivals = []) : s.ReceptionKept s := ⟨rfl, rfl, rfl, rfl, rfl, h⟩

theorem State.ReceptionKept.of_eq {s t u : State} (h : s.ReceptionKept t) (hq : u.rxq = t.rxq)
    (hb : u.busErrors = t.busErrors) (ha : u.arrivals = t.arrivals) : s.ReceptionKept u := by
  constructor
  · rw [hq, h.slots]
  · rw [hq, h.wptr]
  · rw [hq, h.pushed]
  · rw [hq, h.dropped]
  · rw [hb, h.busErrors]
  · rw [ha, h.arrivals]

theorem State.ReceptionKept.preempt {s t u : State} (h : s.ReceptionKept t) (hu : t.preempt = .next u) :
    s.ReceptionKept u := by
  rw [State.preempt_quiet h.arrivals] at hu
  cases hu
  exact h

theorem State.ReceptionKept.askEngine {s t : State} (h : s.ReceptionKept t) : s.ReceptionKept t.askEngine.2 :=
  h.of_eq t.askEngine_rxq t.askEngine_busErrors t.askEngine_arrivals

theorem State.ReceptionKept.setTxq {s t : State} (h : s.ReceptionKept t) (q : Queue) :
    s.ReceptionKept (t.drawPick.2.setQueue .tx q) :=
  h.of_eq (by simp) (by simp) (by simp)

theorem State.ReceptionKept.testEmpty {s t : State} (h : s.ReceptionKept t) (sel : QueueSel) :
    s.ReceptionKept (t.testEmpty sel).2 := by
  cases sel with
  | tx => exact h.setTxq _
  | rx =>
    have hk : s.ReceptionKept { t with rxq := t.flagQueue .consumer .rx } := by
      rw [State.flagQueue, Queue.refreshTo_eq]
      exact { h with }
    exact hk.of_eq (by simp [State.testEmpty]) (by simp [State.testEmpty]) (by simp [State.testEmpty])

theorem State.ReceptionKept.tryPop_tx {s t u : State} {r : Option FrameRecord} (h : s.ReceptionKept t)
    (hu : t.tryPop .tx = .next (r, u)) : s.ReceptionKept u := by
  obtain ⟨q, -, rfl⟩ := State.tryPop_cases hu
  exact h.setTxq q

theorem State.ReceptionKept.tryPush_tx {s t u : State} {f : FrameRecord} {b : Bool} (h : s.ReceptionKept t)
    (hu : t.tryPush .tx f = .next (b, u)) : s.ReceptionKept u := by
  obtain ⟨q, -, rfl⟩ := State.tryPush_cases hu
  exact h.setTxq q

theorem State.ReceptionKept.submit {s t u : State} {f : FrameRecord} {b : Bool} (h : s.ReceptionKept t)
    (hu : t.submit f = .next (b, u)) : s.ReceptionKept u := by
  obtain ⟨-, hu⟩ := State.submit_cases hu
  cases hu
  exact { h with }

theorem State.ReceptionKept.finish {s t : State} (h : s.ReceptionKept t) (r : Result) (c : Option ErrorClass) :
    s.ReceptionKept (t.finish r c) := { h with }

theorem State.ReceptionKept.keptBySending (s : State) : State.KeptBySending True s.ReceptionKept where
  preempt h := ends_of_next fun _ hu => h.preempt hu
  askEngine h := h.askEngine
  testEmpty sel h := h.testEmpty sel
  tryPop h := ends_of_next fun _ hu => h.tryPop_tx hu
  submit _ h := ends_of_next fun _ hu => h.submit hu
  countSent h := { h with }
  countSendError h := { h with }
  finish r c h := h.finish r c

/-! ### What every operation but BEGIN, RESET and STOP leaves -/

/-- From `s` to `t` neither the run state nor what is configured moved, and `engine_log` grew by as many messages as
`framesSent` (rules R33, R108, R120, R138). -/
structure State.Steady (s t : State) : Prop where
  runState : t.runState = s.runState
  rxCap : t.rxq.cap = s.rxq.cap
  txCap : t.txq.cap = s.txq.cap
  cfg : t.cfg = s.cfg
  params : t.params = s.params
  log : ∃ ws, t.engineLog = s.engineLog ++ ws ∧ t.framesSent = s.framesSent + ws.length

theorem State.SentTo.steady {s t : State} {e : Nat} (h : s.SentTo t e) : s.Steady t := by
  obtain ⟨r, q, ws, n, a, o, rfl, hr, -, hq, -⟩ := h
  exact ⟨rfl, hr, hq, rfl, rfl, ws, rfl, rfl⟩

theorem State.Steady.trans {s t u : State} (h : s.Steady t) (h' : t.Steady u) : s.Steady u := by
  obtain ⟨ws, hl, hn⟩ := h.log
  obtain ⟨ws', hl', hn'⟩ := h'.log
  exact ⟨h'.runState.trans h.runState, h'.rxCap.trans h.rxCap, h'.txCap.trans h.txCap, h'.cfg.trans h.cfg,
    h'.params.trans h.params, ws ++ ws', by rw [hl', hl, List.append_assoc],
    by rw [hn', hn, List.length_append, Nat.add_assoc]⟩

theorem State.Steady.finish {s t : State} (h : s.Steady t) (r : Result) (c : Option ErrorClass) :
    s.Steady (t.finish r c) := { h with }

theorem State.setQueue_steady (s : State) (o : Oracle) {sel : QueueSel} {q : Queue} (h : q.cap = (s.queue sel).cap) :
    s.Steady (State.setQueue { s with oracle := o } sel q) := by
  cases sel
  · exact ⟨rfl, h, rfl, rfl, rfl, [], by simp, by simp⟩
  · exact ⟨rfl, rfl, h, rfl, rfl, [], by simp, by simp⟩

theorem State.clearQueue_steady (s : State) (sel : QueueSel) : s.Steady (s.clearQueue sel) :=
  s.setQueue_steady s.oracle rfl

theorem State.preempt_steady {s t : State} (h : s.preempt = .next t) : s.Steady t :=
  (State.preempt_notifiedTo h).sentTo.steady

theorem execAvailable_steady {s t : State} (h : execAvailable s = .next t) : s.Steady t := by
  obtain ⟨-, h⟩ := withContext_eq_next.1 h
  obtain ⟨-, h⟩ := whenRunning_eq_next.1 h
  obtain ⟨⟨b, u⟩, hu, h⟩ := andThen_eq_next.1 h
  obtain ⟨v, hv, h⟩ := andThen_eq_next.1 h
  cases h
  exact (((State.drain_sentTo hu).steady.trans (State.preempt_steady hv)).trans
    (v.testEmpty_sentTo .rx).steady).finish _ _

theorem State.sendDirect_steady {s t : State} {f : FrameRecord} (h : s.sendDirect f = .next t) : s.Steady t := by
  obtain ⟨⟨b, u⟩, hu, h⟩ := andThen_eq_next.1 h
  obtain ⟨v, hv, h⟩ := andThen_eq_next.1 h
  obtain ⟨hyes, hno⟩ := State.submit_sentTo hu
  have hn := State.preempt_notifiedTo hv
  cases b with
  | true => cases h; exact ((hyes rfl).trans hn.countSent.sentTo).steady.finish _ _
  | false => cases h; exact ((hno rfl).trans hn.countSendError.sentTo).steady.finish _ _

theorem State.sendQueued_steady {s t : State} {f : FrameRecord} (h : s.sendQueued f = .next t) : s.Steady t := by
  obtain ⟨⟨b, u⟩, hu, h⟩ := andThen_eq_next.1 h
  obtain ⟨v, hv, h⟩ := andThen_eq_next.1 h
  have hs := (State.tryPush_tx_sentTo hu).steady.trans (State.preempt_steady hv)
  cases b with
  | true => cases h; exact hs.finish _ _
  | false => cases h; exact { hs with }

theorem execSend_steady {f : FrameRecord} {s t : State} (h : execSend f s = .next t) : s.Steady t := by
  obtain ⟨-, h⟩ := withContext_eq_next.1 h
  obtain ⟨-, h⟩ := whenRunning_eq_next.1 h
  split at h
  · obtain ⟨a, ha, h⟩ := andThen_eq_next.1 h
    obtain ⟨b, hb, h⟩ := andThen_eq_next.1 h
    have hs := ((State.preempt_steady ha).trans a.askEngine_sentTo.steady).trans (State.preempt_steady hb)
    split at h
    · exact hs.trans (State.sendDirect_steady h)
    · exact hs.trans (State.sendQueued_steady h)
  · cases h

/-! ### What BEGIN and RESET leave -/

/-- From `s` to `t` the Transport started anew: queues cleared and statistics zeroed, but not what is configured and not
`engine_log` (rules R33, R108, R121, R128, R138). -/
structure State.Restarted (s t : State) : Prop where
  runState : t.runState = .running
  rxCap : t.rxq.cap = s.rxq.cap
  txCap : t.txq.cap = s.txq.cap
  cfg : t.cfg = s.cfg
  params : t.params = s.params
  engineLog : t.engineLog = s.engineLog
  framesSent : t.framesSent = 0
  rxq : s.arrivals = [] → t.rxq = s.rxq.clear

theorem State.begun_restarted {s u : State} (hu : s.begun.preempt = .next u) :
    s.Restarted (State.finish { u with runState := .running } .none none) := by
  have hq (ha : s.arrivals = []) : s.begun = u := by
    rw [State.preempt_quiet (s := s.begun) ha] at hu
    exact Host.Outcome.next.inj hu
  obtain ⟨q, n, a, ps, k, rfl, hcap, -⟩ := State.preempt_notifiedTo hu
  exact ⟨rfl, hcap, rfl, rfl, rfl, rfl, rfl, fun ha => (congrArg State.rxq (hq ha)).symm⟩

theorem execBeginRun_restarted {s t : State} (h : execBeginRun s = .next t) : s.runState = .stopped ∧ s.Restarted t := by
  obtain ⟨-, h⟩ := withContext_eq_next.1 h
  split at h
  · cases h
  · obtain ⟨v, hv, h⟩ := andThen_eq_next.1 h
    obtain ⟨u, hu, hv⟩ := andThen_eq_next.1 hv
    cases hv
    cases h
    exact ⟨‹_›, State.begun_restarted hu⟩

/-- RESET clears the queues twice, which is clearing them once (rule R128). -/
theorem execReset_restarted {s t : State} (h : execReset s = .next t) : s.runState = .running ∧ s.Restarted t := by
  obtain ⟨-, h⟩ := withContext_eq_next.1 h
  obtain ⟨hr, h⟩ := whenRunning_eq_next.1 h
  obtain ⟨v, hv, h⟩ := andThen_eq_next.1 h
  obtain ⟨u, hu, hv⟩ := andThen_eq_next.1 hv
  cases hv
  cases h
  exact ⟨hr, { State.begun_restarted hu with }⟩

theorem execStop_eq {s t : State} (h : execStop s = .next t) : s.runState = .running ∧
    t = State.finish { s.stopEngine with engine := .absent, runState := .stopped } .none none := by
  obtain ⟨-, h⟩ := withContext_eq_next.1 h
  obtain ⟨hr, h⟩ := whenRunning_eq_next.1 h
  exact ⟨hr, (Host.Outcome.next.inj h).symm⟩

/-! ### What an operation that answers did -/

/-- Everything the operation `i` can leave of `s`. Of the three that send or receive frames for POLL it says what their column
of rule R39 needs. -/
inductive State.Effect (s : State) : Instr → State → Prop
  | returns {i : Instr} (o : Oracle) (r : Result) (hi : i.isRead = true ∨ ∃ f, i = .encode f) :
      s.Effect i (State.finish { s with oracle := o } r none)
  | flag {i : Instr} (sel : QueueSel) (o : Oracle) (seen seen' : Nat) (r : Result) (hi : i = .isEmpty sel ∨ i = .isFull sel) :
      s.Effect i ((State.setQueue { s with oracle := o } sel
        { s.queue sel with pushesSeen := seen, popsSeen := seen' }).finish r none)
  | push {sel : QueueSel} {f : FrameRecord} {q : Queue} (o : Oracle) (r : Result) (c : Option ErrorClass)
      (hp : permitted s.issuer (.tryPush sel f) = true) (hcap : q.cap = (s.queue sel).cap)
      (hrptr : q.rptr = (s.queue sel).rptr) :
      s.Effect (.tryPush sel f) ((State.setQueue { s with oracle := o } sel q).finish r c)
  | pop {sel : QueueSel} {q : Queue} (o : Oracle) (r : Result) (hp : permitted s.issuer (.tryPop sel) = true)
      (hcap : q.cap = (s.queue sel).cap) (hslots : q.slots = (s.queue sel).slots) (hwptr : q.wptr = (s.queue sel).wptr)
      (hpushed : q.pushed = (s.queue sel).pushed) (hdropped : q.dropped = (s.queue sel).dropped) :
      s.Effect (.tryPop sel) ((State.setQueue { s with oracle := o } sel q).finish r none)
  | clear {sel : QueueSel} {u : State} (hp : s.issuer = .poll) (hu : (s.clearQueue sel).preempt = .next u) :
      s.Effect (.clear sel) (u.finish .none none)
  | restarts {i : Instr} {t : State} (hi : i = .beginRun ∨ i = .reset) (hp : s.issuer = .poll) (hs : s.Restarted t) :
      s.Effect i t
  | stop (hp : s.issuer = .poll) :
      s.Effect .stop (State.finish { s.stopEngine with engine := .absent, runState := .stopped } .none none)
  | transports {i : Instr} {t : State} (hi : i = .available ∨ i = .getNextFrame ∨ ∃ f, i = .send f)
      (hp : s.issuer = .poll) (hs : s.Steady t) (hk : s.arrivals = [] → s.ReceptionKept t) : s.Effect i t
  | notified {i : Instr} {u : State} (c : Option ErrorClass)
      (hi : ∃ w, i = .notifyRx w ∨ i = .notifyTx w ∨ i = .notifyErr w) (hp : s.issuer = .notify)
      (hu : s.NotifiedTo u) : s.Effect i (u.finish .none c)

theorem exec_isRead_effect {i : Instr} {s t : State} (hi : i.isRead = true) (h : exec i s = .next t) : s.Effect i t := by
  obtain ⟨r, hr⟩ := exec_isRead s hi
  rw [hr] at h
  obtain ⟨-, h⟩ := withContext_eq_next.1 h
  cases h
  exact .returns s.oracle r (.inl hi)

theorem execEncode_effect {f : FrameRecord} {s t : State} (h : execEncode f s = .next t) : s.Effect (.encode f) t := by
  obtain ⟨-, h⟩ := withContext_eq_next.1 h
  obtain ⟨⟨w, u⟩, hu, h⟩ := andThen_eq_next.1 h
  unfold State.encodeOp at hu
  split at hu
  · cases hu; cases h; exact .returns _ _ (.inr ⟨f, rfl⟩)
  · cases hu

theorem execTryPush_effect {sel : QueueSel} {f : FrameRecord} {s t : State} (h : execTryPush sel f s = .next t) :
    s.Effect (.tryPush sel f) t := by
  obtain ⟨hp, h⟩ := withContext_eq_next.1 h
  obtain ⟨⟨b, u⟩, hu, h⟩ := andThen_eq_next.1 h
  obtain ⟨q, hq, rfl⟩ := State.tryPush_cases hu
  obtain ⟨hcap, hrptr⟩ := Queue.tryPush_keeps hq
  cases h
  rw [s.drawPick_eq]
  exact .push _ _ _ hp hcap hrptr

theorem execTryPop_effect {sel : QueueSel} {s t : State} (h : execTryPop sel s = .next t) : s.Effect (.tryPop sel) t := by
  obtain ⟨hp, h⟩ := withContext_eq_next.1 h
  obtain ⟨⟨r, u⟩, hu, h⟩ := andThen_eq_next.1 h
  obtain ⟨q, hq, rfl⟩ := State.tryPop_cases hu
  obtain ⟨hcap, hslots, hwptr, hpushed, hdropped⟩ := Queue.tryPop_keeps hq
  cases h
  rw [s.drawPick_eq]
  exact .pop _ _ hp hcap hslots hwptr hpushed hdropped

theorem execIsEmpty_effect {sel : QueueSel} {s t : State} (h : execIsEmpty sel s = .next t) : s.Effect (.isEmpty sel) t := by
  obtain ⟨-, h⟩ := withContext_eq_next.1 h
  cases h
  rw [State.testEmpty, State.flagQueue, Queue.refreshTo_eq, s.drawPick_eq]
  exact .flag sel _ _ _ _ (.inl rfl)

theorem execIsFull_effect {sel : QueueSel} {s t : State} (h : execIsFull sel s = .next t) : s.Effect (.isFull sel) t := by
  obtain ⟨-, h⟩ := withContext_eq_next.1 h
  cases h
  rw [State.testFull, State.flagQueue, Queue.refreshTo_eq, s.drawPick_eq]
  exact .flag sel _ _ _ _ (.inr rfl)

theorem execClear_effect {sel : QueueSel} {s t : State} (h : execClear sel s = .next t) : s.Effect (.clear sel) t := by
  obtain ⟨hp, h⟩ := withContext_eq_next.1 h
  split at h
  · cases h
  · obtain ⟨u, hu, h⟩ := andThen_eq_next.1 h
    cases h
    exact .clear (eq_of_beq hp) hu

theorem execBeginRun_effect {s t : State} (h : execBeginRun s = .next t) : s.Effect .beginRun t :=
  .restarts (.inl rfl) (eq_of_beq (withContext_eq_next.1 h).1) (execBeginRun_restarted h).2

theorem execReset_effect {s t : State} (h : execReset s = .next t) : s.Effect .reset t :=
  .restarts (.inr rfl) (eq_of_beq (withContext_eq_next.1 h).1) (execReset_restarted h).2

theorem execStop_effect {s t : State} (h : execStop s = .next t) : s.Effect .stop t := by
  obtain ⟨-, rfl⟩ := execStop_eq h
  exact .stop (eq_of_beq (withContext_eq_next.1 h).1)

theorem execAvailable_effect {s t : State} (h : execAvailable s = .next t) : s.Effect .available t :=
  .transports (.inl rfl) (eq_of_beq (withContext_eq_next.1 h).1) (execAvailable_steady h) fun ha =>
    ((State.ReceptionKept.keptBySending s).available (.refl ha)).of_next h

theorem execSend_effect {f : FrameRecord} {s t : State} (h : execSend f s = .next t) : s.Effect (.send f) t :=
  .transports (.inr (.inr ⟨f, rfl⟩)) (eq_of_beq (withContext_eq_next.1 h).1) (execSend_steady h) fun ha =>
    ((State.ReceptionKept.keptBySending s).send (.refl ha) fun hk => ends_of_next fun _ hu => hk.tryPush_tx hu).of_next h

/-- GET_NEXT_FRAME moves RXQ's read side, which is POLL's own (rules R39, R123). -/
theorem execGetNextFrame_effect {s t : State} (h : execGetNextFrame s = .next t) : s.Effect .getNextFrame t := by
  obtain ⟨hp, h⟩ := withContext_eq_next.1 h
  obtain ⟨-, h⟩ := whenRunning_eq_next.1 h
  obtain ⟨⟨r, u⟩, hu, h⟩ := andThen_eq_next.1 h
  obtain ⟨v, hv, h⟩ := andThen_eq_next.1 h
  obtain ⟨q, hq, rfl⟩ := State.tryPop_cases hu
  obtain ⟨hcap, hslots, hwptr, hpushed, hdropped⟩ := Queue.tryPop_keeps hq
  rw [s.drawPick_eq] at hv
  have hs := (s.setQueue_steady _ hcap).trans (State.preempt_steady hv)
  have hk (ha : s.arrivals = []) : s.ReceptionKept v :=
    State.ReceptionKept.preempt (t := State.setQueue { s with oracle := s.drawPick.2.oracle } .rx q)
      ⟨hslots, hwptr, hpushed, hdropped, rfl, ha⟩ hv
  cases r with
  | none => cases h; exact .transports (.inr (.inl rfl)) (eq_of_beq hp) (hs.finish _ _) fun ha => (hk ha).finish _ _
  | some f => cases h; exact .transports (.inr (.inl rfl)) (eq_of_beq hp) { hs with } fun ha => { hk ha with }

theorem State.notifyOp_notifiedTo {s t : State} {n : Notification} (h : s.notifyOp n = .next t) :
    ∃ c u, s.NotifiedTo u ∧ t = u.finish .none c := by
  obtain ⟨⟨c, u⟩, hu, h⟩ := andThen_eq_next.1 h
  cases h
  exact ⟨c, u, State.notify_notifiedTo hu, rfl⟩

/-- A notification presented as an operation, whichever it is. -/
theorem notified_effect {i : Instr} {n : Notification} {s t : State}
    (hi : ∃ w, i = .notifyRx w ∨ i = .notifyTx w ∨ i = .notifyErr w)
    (h : withContext i s (whenNotifiable s (s.notifyOp n)) = .next t) : s.Effect i t := by
  obtain ⟨hp, h⟩ := withContext_eq_next.1 h
  obtain ⟨-, h⟩ := whenNotifiable_eq_next.1 h
  obtain ⟨c, u, hu, rfl⟩ := State.notifyOp_notifiedTo h
  refine .notified c hi ?_ hu
  obtain ⟨w, rfl | rfl | rfl⟩ := hi <;> exact beq_iff_eq.1 hp

/-- Everything an operation that answers can have done. -/
theorem exec_effect {i : Instr} {s t : State} (h : exec i s = .next t) : s.Effect i t := by
  cases i with
  | encode f => exact execEncode_effect h
  | tryPush sel f => exact execTryPush_effect h
  | tryPop sel => exact execTryPop_effect h
  | isEmpty sel => exact execIsEmpty_effect h
  | isFull sel => exact execIsFull_effect h
  | clear sel => exact execClear_effect h
  | beginRun => exact execBeginRun_effect h
  | available => exact execAvailable_effect h
  | getNextFrame => exact execGetNextFrame_effect h
  | send f => exact execSend_effect h
  | reset => exact execReset_effect h
  | stop => exact execStop_effect h
  | notifyRx w => exact notified_effect ⟨w, .inl rfl⟩ h
  | notifyTx w => exact notified_effect ⟨w, .inr (.inl rfl)⟩ h
  | notifyErr w => exact notified_effect ⟨w, .inr (.inr rfl)⟩ h
  | decode _ | rdPushed _ | rdDropped _ | receivedCount | sentCount | sendErrorCount | wireidStdData _
  | wireidStdRemote _ | wireidExtData _ | wireidExtRemote _ => exact exec_isRead_effect rfl h

/-! ### What is read off the effect -/

theorem State.Effect.steady {i : Instr} {s t : State} (h : s.Effect i t) (hb : i ≠ .beginRun) (hr : i ≠ .reset)
    (hs : i ≠ .stop) : s.Steady t := by
  cases h with
  | returns o r hi => exact ⟨rfl, rfl, rfl, rfl, rfl, [], by simp, by simp⟩
  | flag sel o seen seen' r hi => refine (s.setQueue_steady o ?_).finish _ _; rfl
  | push o r c hp hcap hrptr => exact (s.setQueue_steady o hcap).finish _ _
  | pop o r hp hcap => exact (s.setQueue_steady o hcap).finish _ _
  | clear hp hu => exact ((s.clearQueue_steady _).trans (State.preempt_steady hu)).finish _ _
  | restarts hi => exact absurd hi (not_or_intro hb hr)
  | stop => contradiction
  | transports hi hp hst hk => exact hst
  | notified c hi hp hu => exact hu.sentTo.steady.finish _ _

/-- Settles O52: BEGIN and RESET end in Running, STOP in Stopped, and every other operation is steady. -/
theorem runStateTransitions : Obligations.RunStateTransitions := by
  unfold Obligations.RunStateTransitions
  intro i s t h
  refine ⟨?_, ?_, ?_, fun hb hs hr => ((exec_effect h).steady hb hr hs).runState⟩
  · rintro rfl
    obtain ⟨hr, hs⟩ := execBeginRun_restarted h
    exact ⟨hr, hs.runState⟩
  · rintro rfl
    obtain ⟨hr, rfl⟩ := execStop_eq h
    exact ⟨hr, rfl⟩
  · rintro rfl
    obtain ⟨hr, hs⟩ := execReset_restarted h
    exact ⟨hr, hs.runState⟩

/-- Settles O53: clearing and restarting keep what is configured too. -/
theorem configurationNeverChanges : Obligations.ConfigurationNeverChanges := by
  unfold Obligations.ConfigurationNeverChanges
  intro i s t h
  cases i with
  | beginRun => obtain ⟨-, hs⟩ := execBeginRun_restarted h; exact ⟨hs.rxCap, hs.txCap, hs.cfg, hs.params⟩
  | reset => obtain ⟨-, hs⟩ := execReset_restarted h; exact ⟨hs.rxCap, hs.txCap, hs.cfg, hs.params⟩
  | stop => obtain ⟨-, rfl⟩ := execStop_eq h; exact ⟨rfl, rfl, rfl, rfl⟩
  | _ =>
    have hs := (exec_effect h).steady nofun nofun nofun
    exact ⟨hs.rxCap, hs.txCap, hs.cfg, hs.params⟩

/-- Settles O43: BEGIN and RESET send nothing, and every other operation but STOP is steady. -/
theorem logGrowsWithFramesSent : Obligations.LogGrowsWithFramesSent := by
  unfold Obligations.LogGrowsWithFramesSent
  intro i s t h
  cases i with
  | beginRun =>
    obtain ⟨-, hs⟩ := execBeginRun_restarted h
    exact ⟨[], by simp [hs.engineLog], by simp, fun _ => ⟨rfl, hs.framesSent⟩⟩
  | reset =>
    obtain ⟨-, hs⟩ := execReset_restarted h
    exact ⟨[], by simp [hs.engineLog], by simp, fun _ => ⟨rfl, hs.framesSent⟩⟩
  | stop => obtain ⟨-, rfl⟩ := execStop_eq h; exact ⟨[], by simp⟩
  | _ =>
    obtain ⟨ws, hlog, hsent⟩ := ((exec_effect h).steady nofun nofun nofun).log
    exact ⟨ws, hlog, fun _ _ => hsent, nofun⟩

/-- Settles O55: the operations NOTIFY may issue are reads, flags, the push into RXQ, the pop of TXQ and the notifications. -/
theorem notifyTouchesOnlyItsState : Obligations.NotifyTouchesOnlyItsState := by
  unfold Obligations.NotifyTouchesOnlyItsState
  intro i s t hn h
  have hpoll : s.issuer ≠ .poll := by rw [hn]; nofun
  cases exec_effect h with
  | returns o r hi => simp
  | flag sel o seen seen' r hi => cases sel <;> simp
  | @push sel f q o r c hp hcap hrptr =>
    rw [hn] at hp
    cases sel with
    | rx => simpa using hrptr
    | tx => cases hp
  | @pop sel q o r hp hcap hslots hwptr hpushed hdropped =>
    rw [hn] at hp
    cases sel with
    | rx => cases hp
    | tx => simp_all
  | clear hp | restarts _ hp | stop hp | transports _ hp => exact absurd hp hpoll
  | notified c hi hp hu => obtain ⟨q, n, a, ps, k, rfl, -, hrptr⟩ := hu; simpa using hrptr

/-- Settles O56: POLL may issue every operation but the push into RXQ and the notifications. -/
theorem pollTouchesOnlyItsState : Obligations.PollTouchesOnlyItsState := by
  unfold Obligations.PollTouchesOnlyItsState
  intro i s t hp ha h
  cases exec_effect h with
  | returns o r hi => simp
  | flag sel o seen seen' r hi => cases sel <;> simp
  | @push sel f q o r c hperm hcap hrptr =>
    rw [hp] at hperm
    cases sel with
    | rx => cases hperm
    | tx => simp
  | @pop sel q o r hperm hcap hslots hwptr hpushed hdropped =>
    cases sel with
    | rx => simp_all
    | tx => simp
  | @clear sel u _ hu =>
    have hk : (s.clearQueue sel).preempt = .next (s.clearQueue sel) := State.preempt_quiet (by cases sel <;> exact ha)
    rw [hk] at hu
    cases hu
    cases sel <;> simp [State.clearQueue, Queue.clear]
  | restarts hi _ hs =>
    rw [hs.rxq ha]
    exact ⟨rfl, rfl, rfl, by rcases hi with rfl | rfl <;> simp⟩
  | stop => simp
  | transports hi _ hst hk =>
    have hk := hk ha
    exact ⟨hk.slots, hk.pushed, hk.dropped, fun _ _ _ => hk.wptr, fun _ _ => hk.busErrors⟩
  | notified c hi hnotify hu => rw [hp] at hnotify; cases hnotify

end Sys2Proof.Machine

/-! PROOF. O57: SEND and AVAILABLE do the same to the transmit side whatever notifications run into them. Each run is
followed by the run from the state without a receive side, in which no notification comes; two runs that are followed by
one agree. -/
namespace Sys2Proof.Machine

/-! ### A run that follows another -/

/-- Where `o` answers, `o'` answers a value that `R` relates to it. -/
def Follows {α β : Type} (R : α → β → Prop) (o : Res α) (o' : Res β) : Prop :=
  ∀ a, o = .next a → ∃ b, o' = .next b ∧ R a b

section
variable {α β γ δ : Type} {R : α → β → Prop} {S : γ → δ → Prop} {o : Res α} {o' : Res β} {k : α → Res γ} {k' : β → Res δ}

theorem Follows.next {a : α} {b : β} (h : R a b) : Follows R (.next a) (.next b) := by
  rintro _ ⟨⟩
  exact ⟨b, rfl, h⟩

theorem Follows.refused (r : Refusal) : Follows R (.refused r) o' := nofun

theorem Follows.andThen (h : Follows R o o') (hk : ∀ a b, R a b → Follows S (k a) (k' b)) :
    Follows S (andThen o k) (andThen o' k') := by
  intro c hc
  obtain ⟨a, ha, hc⟩ := andThen_eq_next.1 hc
  obtain ⟨b, rfl, hab⟩ := h a ha
  exact hk a b hab c hc

end

/-! ### The transmit side -/

/-- The state without what a notification can change when no draw is made (rules R39, R60). -/
def State.transmission (s : State) : State := { s with rxq := Queue.empty 0, busErrors := 0, arrivals := [] }

/-- `t` is the transmit side of `s`, which makes no draws. -/
def State.TransmitsAs (s t : State) : Prop := t = s.transmission ∧ s.params.syncLag = false

/-- The same answer, and states related as before. -/
def AnswersAs {α : Type} (r r' : α × State) : Prop := r.1 = r'.1 ∧ r.2.TransmitsAs r'.2

theorem State.notify_transmission {s t : State} {n : Notification} {c : Option ErrorClass}
    (hl : s.params.syncLag = false) (h : s.notify n = .next (c, t)) : t.transmission = s.transmission := by
  cases n with
  | rxComplete w =>
    obtain ⟨⟨b, u⟩, hu, h⟩ := andThen_eq_next.1 h
    rw [State.tryPush_exact .rx _ hl] at hu
    obtain ⟨⟨b', q⟩, -, hu⟩ := andThen_eq_next.1 hu
    cases hu
    cases h
    rfl
  | txComplete w => cases h; rfl
  | error w => cases h; rfl

theorem State.serve_transmission {l : List Arrival} {s t : State} (hl : s.params.syncLag = false)
    (h : s.serve l = .next t) : t.transmission = s.transmission := by
  induction l generalizing s with
  | nil => cases h; rfl
  | cons a rest ih =>
    unfold State.serve at h
    split at h
    · obtain ⟨⟨c, u⟩, hu, h⟩ := andThen_eq_next.1 h
      have hp := (State.notify_notifiedTo hu).params
      exact (ih (hp ▸ hl) h).trans (State.notify_transmission hl hu)
    · cases h; rfl

theorem State.preempt_transmission {s t : State} (hl : s.params.syncLag = false) (h : s.preempt = .next t) :
    t.transmission = s.transmission := by
  unfold State.preempt at h
  split at h
  · exact State.serve_transmission hl h
  · cases h; rfl

namespace State.TransmitsAs
variable {s s' : State}

theorem preempt (h : s.TransmitsAs s') : Follows TransmitsAs s.preempt s'.preempt := by
  obtain ⟨rfl, hl⟩ := h
  intro t ht
  refine ⟨_, State.preempt_quiet rfl, (State.preempt_transmission hl ht).symm, ?_⟩
  rw [(State.preempt_notifiedTo ht).params]; exact hl

theorem askEngine (h : s.TransmitsAs s') : AnswersAs s.askEngine s'.askEngine := by
  obtain ⟨rfl, hl⟩ := h
  unfold AnswersAs TransmitsAs State.askEngine State.transmission
  cases s.oracle.answers <;> exact ⟨rfl, rfl, hl⟩

/-- An operation on TXQ is the same in both runs, since TXQ is. -/
theorem onTxq {α : Type} (h : s.TransmitsAs s') (o : Res (α × Queue)) :
    Follows AnswersAs (andThen o fun r => .next (r.1, s.setQueue .tx r.2))
      (andThen o fun r => .next (r.1, s'.setQueue .tx r.2)) := by
  obtain ⟨rfl, hl⟩ := h
  refine Follows.andThen (R := Eq) (fun r hr => ⟨r, hr, rfl⟩) ?_
  rintro r _ rfl
  exact .next ⟨rfl, rfl, hl⟩

theorem tryPop (h : s.TransmitsAs s') : Follows AnswersAs (s.tryPop .tx) (s'.tryPop .tx) := by
  obtain ⟨rfl, hl⟩ := h
  rw [State.tryPop_exact .tx hl, State.tryPop_exact .tx (s := s.transmission) hl]
  exact State.TransmitsAs.onTxq ⟨rfl, hl⟩ (s.txq.tryPop .tx false 0)

theorem tryPush {f : FrameRecord} (h : s.TransmitsAs s') : Follows AnswersAs (s.tryPush .tx f) (s'.tryPush .tx f) := by
  obtain ⟨rfl, hl⟩ := h
  rw [State.tryPush_exact .tx f hl, State.tryPush_exact .tx f (s := s.transmission) hl]
  exact State.TransmitsAs.onTxq ⟨rfl, hl⟩ (s.txq.tryPush false 0 f)

theorem submit {f : FrameRecord} (h : s.TransmitsAs s') : Follows AnswersAs (s.submit f) (s'.submit f) := by
  intro r hr
  obtain ⟨hf, rfl⟩ := State.submit_cases hr
  obtain ⟨hask, hs, hl⟩ := h.askEngine
  refine ⟨_, State.submit_eq hf, hask, ?_, h.2⟩
  rw [State.oracleAfterSubmit, hs, ← hask, h.1]
  rfl

theorem countSent (h : s.TransmitsAs s') : s.countSent.TransmitsAs s'.countSent := by
  obtain ⟨rfl, hl⟩ := h
  exact ⟨rfl, hl⟩

theorem countSendError (h : s.TransmitsAs s') : s.countSendError.TransmitsAs s'.countSendError := by
  obtain ⟨rfl, hl⟩ := h
  exact ⟨rfl, hl⟩

theorem finish (h : s.TransmitsAs s') (r : Result) (c : Option ErrorClass) :
    (s.finish r c).TransmitsAs (s'.finish r c) := by
  obtain ⟨rfl, hl⟩ := h
  exact ⟨rfl, hl⟩

/-! ### AVAILABLE and SEND -/

theorem drainTurn {again again' : State → Res (Bool × State)} {f : FrameRecord} (h : s.TransmitsAs s')
    (hagain : ∀ t t' : State, t.TransmitsAs t' → Follows AnswersAs (again t) (again' t')) :
    Follows AnswersAs (s.drainTurn again f) (s'.drainTurn again' f) := by
  refine h.submit.andThen fun r r' ⟨hr, hs⟩ => hs.preempt.andThen fun t t' ht => ?_
  rw [hr]
  split
  · exact ht.countSent.preempt.andThen hagain
  · exact .next ⟨rfl, ht.countSendError⟩

theorem drain {fuel : Nat} (h : s.TransmitsAs s') : Follows AnswersAs (s.drain fuel) (s'.drain fuel) := by
  induction fuel generalizing s s' with
  | zero => exact .next ⟨rfl, h⟩
  | succ fuel ih =>
    have hq : s'.txq = s.txq := by rw [h.1]; rfl
    unfold State.drain
    rw [State.testEmpty_exact .tx h.2, State.testEmpty_exact .tx (s := s') (by rw [h.1]; exact h.2), State.queue_tx,
      State.queue_tx, hq]
    split
    · exact .next ⟨rfl, h⟩
    · refine h.preempt.andThen fun a a' ha => ?_
      obtain ⟨hask, ha⟩ := ha.askEngine
      rw [hask]
      split
      · refine ha.preempt.andThen fun b b' hb => hb.tryPop.andThen fun r r' ⟨hr, hs⟩ => hs.preempt.andThen fun c c' hc => ?_
        rw [hr]
        cases r'.1 with
        | none => exact .next ⟨rfl, hc⟩
        | some f => exact hc.drainTurn fun _ _ => ih
      · exact .next ⟨rfl, ha⟩

theorem sendDirect {f : FrameRecord} (h : s.TransmitsAs s') : Follows TransmitsAs (s.sendDirect f) (s'.sendDirect f) := by
  refine h.submit.andThen fun r r' ⟨hr, hs⟩ => hs.preempt.andThen fun t t' ht => ?_
  rw [hr]
  split
  · exact .next (ht.countSent.finish _ _)
  · exact .next (ht.countSendError.finish _ _)

theorem sendQueued {f : FrameRecord} (h : s.TransmitsAs s') : Follows TransmitsAs (s.sendQueued f) (s'.sendQueued f) := by
  refine h.tryPush.andThen fun r r' ⟨hr, hs⟩ => hs.preempt.andThen fun t t' ht => ?_
  rw [hr]
  split
  · exact .next (ht.finish _ _)
  · exact .next (ht.countSendError.finish _ _)

end State.TransmitsAs

theorem withContext_follows {i : Instr} {s : State} {k k' : Res State} {R : State → State → Prop} (h : Follows R k k') :
    Follows R (withContext i s k) (withContext i s.transmission k') := by
  change Follows R _ (if permitted s.issuer i then k' else .refused .wrongContext)
  unfold withContext
  split
  · exact h
  · exact .refused _

theorem whenRunning_follows {s : State} {k k' : Res State} {R : State → State → Prop} (h : Follows R k k') :
    Follows R (whenRunning s k) (whenRunning s.transmission k') := by
  unfold whenRunning
  rw [show s.transmission.runState = s.runState from rfl]
  split
  · exact h
  · exact .refused _

/-- `t` is the transmit side of `s` but for the value returned. -/
def State.TransmitsAsButResult (s t : State) : Prop := t = { s.transmission with result := t.result }

/-- AVAILABLE returns what it finds in RXQ, so the value is its own in either run. -/
theorem execAvailable_follows {s : State} (hl : s.params.syncLag = false) :
    Follows State.TransmitsAsButResult (execAvailable s) (execAvailable s.transmission) := by
  have hs : s.TransmitsAs s.transmission := ⟨rfl, hl⟩
  refine withContext_follows <| whenRunning_follows <| hs.drain.andThen fun d d' ⟨hb, hd⟩ =>
    hd.preempt.andThen fun t t' ⟨ht, htl⟩ => ?_
  rw [State.testEmpty_exact .rx htl, State.testEmpty_exact .rx (s := t') (by rw [ht]; exact htl), hb, ht]
  exact .next rfl

theorem execSend_follows {s : State} (f : FrameRecord) (hl : s.params.syncLag = false) :
    Follows State.TransmitsAs (execSend f s) (execSend f s.transmission) := by
  have hs : s.TransmitsAs s.transmission := ⟨rfl, hl⟩
  refine withContext_follows <| whenRunning_follows ?_
  split
  · refine hs.preempt.andThen fun a a' ha => ?_
    obtain ⟨hask, ha⟩ := ha.askEngine
    refine ha.preempt.andThen fun b b' hb => ?_
    rw [hask]
    split
    · exact hb.sendDirect
    · exact hb.sendQueued
  · exact .refused _

/-- The transmit side of an AVAILABLE or a SEND that answers is that of the run without a receive side. -/
theorem exec_follows {i : Instr} {s t : State} (hi : i = .available ∨ ∃ f, i = .send f) (hl : s.params.syncLag = false)
    (h : exec i s = .next t) :
    ∃ t', exec i s.transmission = .next t' ∧ t.TransmitsAsButResult t' ∧ (i ≠ .available → t'.result = t.result) := by
  rcases hi with rfl | ⟨f, rfl⟩
  · obtain ⟨t', ht', ht⟩ := execAvailable_follows hl t h
    exact ⟨t', ht', ht, fun hne => absurd rfl hne⟩
  · obtain ⟨t', ht', ht, -⟩ := execSend_follows f hl t h
    exact ⟨t', ht', by rw [ht]; rfl, fun _ => by rw [ht]; rfl⟩

/-- Settles O57: without the arrivals the state has the same transmit side, so one run follows both. -/
theorem notificationsDoNotDisturbTransmission : Obligations.NotificationsDoNotDisturbTransmission := by
  unfold Obligations.NotificationsDoNotDisturbTransmission
  intro i s t u hi hl ht hu
  obtain ⟨t', hrun, ht, htr⟩ := exec_follows hi hl ht
  obtain ⟨u', hrun', hu, hur⟩ := exec_follows (s := { s with arrivals := [] }) hi hl hu
  obtain rfl : t' = u' := Host.Outcome.next.inj (hrun.symm.trans hrun')
  have e := ht.symm.trans hu
  simp only [State.transmission, State.mk.injEq, true_and] at e
  obtain ⟨htxq, hrs, -, -, hsent, hreceived, herrors, -, -, hlog, hcause, -, -, horacle⟩ := e
  exact ⟨htxq, hsent, herrors, hreceived, hlog, hcause, horacle, hrs, fun hne => (htr hne).symm.trans (hur hne)⟩

end Sys2Proof.Machine

/-! PROOF. O17, O18, O19, O20, O22: the queue operations that test a flag. Each tests its queue as one side sees it, which
is the queue itself without SYNC_LAG and the queue with that side's copy drawn anew with it (rules R60, R61). -/
namespace Sys2Proof.Machine

/-! ### A queue as one side sees it -/

/-- The queue as its producer's next operation finds it (rules R60, R61). -/
def State.producerView (s : State) (sel : QueueSel) : Queue :=
  (s.queue sel).refreshProducer s.params.syncLag s.drawPick.1

/-- The queue as its consumer's next operation finds it (rules R60, R61). -/
def State.consumerView (s : State) (sel : QueueSel) : Queue :=
  (s.queue sel).refreshConsumer s.params.syncLag s.drawPick.1

theorem State.producerView_exact {s : State} (sel : QueueSel) (h : s.params.syncLag = false) :
    s.producerView sel = s.queue sel := by
  rw [State.producerView, h, Queue.refreshProducer_exact]

theorem State.consumerView_exact {s : State} (sel : QueueSel) (h : s.params.syncLag = false) :
    s.consumerView sel = s.queue sel := by
  rw [State.consumerView, h, Queue.refreshConsumer_exact]

/-- With SYNC_LAG the producer sees the queue with its copy moved towards the pops (rule R61). -/
theorem State.producerView_lag {s : State} {sel : QueueSel} (hl : s.params.syncLag = true) (h : (s.queue sel).Inv true) :
    ∃ seen, (s.queue sel).popsSeen ≤ seen ∧ seen ≤ (s.queue sel).pops ∧
      s.producerView sel = { s.queue sel with popsSeen := seen } :=
  ⟨_, advanceCopy_ge s.drawPick.1 _ _, advanceCopy_le _ h.popsSeenLe, by rw [State.producerView, hl]; rfl⟩

/-- With SYNC_LAG the consumer sees the queue with its copy moved towards the pushes (rule R61). -/
theorem State.consumerView_lag {s : State} {sel : QueueSel} (hl : s.params.syncLag = true) (h : (s.queue sel).Inv true) :
    ∃ seen, (s.queue sel).pushesSeen ≤ seen ∧ seen ≤ (s.queue sel).pushes ∧
      s.consumerView sel = { s.queue sel with pushesSeen := seen } :=
  ⟨_, advanceCopy_ge s.drawPick.1 _ _, advanceCopy_le _ h.pushesSeenLe, by rw [State.consumerView, hl]; rfl⟩

theorem State.producerView_inv {s : State} {sel : QueueSel} (hl : s.params.syncLag = true) (h : (s.queue sel).Inv true) :
    (s.producerView sel).Inv true := by
  rw [State.producerView, hl]
  exact h.refreshProducer _

theorem State.consumerView_inv {s : State} {sel : QueueSel} (hl : s.params.syncLag = true) (h : (s.queue sel).Inv true) :
    (s.consumerView sel).Inv true := by
  rw [State.consumerView, hl]
  exact h.refreshConsumer _

/-- A queue put back after a draw: beside it only the oracle moves. -/
theorem State.drawPick_setQueue (s : State) (sel : QueueSel) (q : Queue) :
    s.drawPick.2.setQueue sel q = { s.setQueue sel q with oracle := s.drawPick.2.oracle } := by
  rw [s.drawPick_eq]
  cases sel <;> rfl

/-- Without SYNC_LAG the oracle does not move either (rule R60). -/
theorem State.drawPick_setQueue_exact {s : State} (sel : QueueSel) (q : Queue) (h : s.params.syncLag = false) :
    s.drawPick.2.setQueue sel q = s.setQueue sel q := by
  rw [s.drawPick_exact h]

/-! ### The tests of rule R61 as the differences that the rule writes -/

theorem beq_add_eq_decide_sub_eq {a b : Nat} (c : Nat) (h : b ≤ a) : (a == b + c) = decide (a - b = c) := by
  rw [Bool.eq_iff_iff, beq_iff_eq, decide_eq_true_iff]
  omega

theorem Queue.Inv.popsSeen_le_pushes {lag : Bool} {q : Queue} (h : q.Inv lag) : q.popsSeen ≤ q.pushes :=
  Nat.le_trans h.popsSeenLe (h.occupancy ▸ Nat.le_add_right _ _)

theorem Queue.Inv.fullTo_producer {q : Queue} (h : q.Inv true) :
    q.fullTo .producer true = decide (q.pushes - q.popsSeen = q.cap) :=
  beq_add_eq_decide_sub_eq q.cap h.popsSeen_le_pushes

theorem Queue.Inv.emptyTo_producer {q : Queue} (h : q.Inv true) :
    q.emptyTo .producer true = decide (q.pushes - q.popsSeen = 0) :=
  beq_add_eq_decide_sub_eq 0 h.popsSeen_le_pushes

theorem Queue.Inv.fullTo_consumer {q : Queue} (h : q.Inv true) :
    q.fullTo .consumer true = decide (q.pushesSeen - q.pops = q.cap) :=
  beq_add_eq_decide_sub_eq q.cap (h.consumerBehind rfl)

theorem Queue.Inv.emptyTo_consumer {q : Queue} (h : q.Inv true) :
    q.emptyTo .consumer true = decide (q.pushesSeen - q.pops = 0) :=
  beq_add_eq_decide_sub_eq 0 (h.consumerBehind rfl)

/-! ### TRY_PUSH -/

/-- Where the producer sees the queue full, TRY_PUSH drops the record and counts it (rule R100). -/
theorem exec_tryPush_full {s : State} {sel : QueueSel} (f : FrameRecord) (hp : permitted s.issuer (.tryPush sel f) = true)
    (hfull : (s.producerView sel).fullFlag s.params.syncLag = true) :
    exec (.tryPush sel f) s =
      .next ((s.drawPick.2.setQueue sel (s.producerView sel).afterDrop).finish (.bool false) (some .queueFull)) := by
  refine withContext_eq_next.2 ⟨hp, ?_⟩
  rw [State.tryPush, Queue.tryPush, ← State.producerView, if_pos hfull]
  rfl

/-- Where the producer sees room, TRY_PUSH stores the record at the write pointer (rule R100). -/
theorem exec_tryPush_room {s : State} {sel : QueueSel} (f : FrameRecord) (hp : permitted s.issuer (.tryPush sel f) = true)
    (hroom : (s.producerView sel).fullFlag s.params.syncLag = false) (hw : (s.queue sel).wptr < (s.queue sel).cap) :
    exec (.tryPush sel f) s =
      .next ((s.drawPick.2.setQueue sel ((s.producerView sel).afterPush
        ((s.queue sel).slots.write (s.queue sel).wptr f))).finish (.bool true) none) := by
  refine withContext_eq_next.2 ⟨hp, ?_⟩
  rw [State.tryPush, Queue.tryPush, ← State.producerView, if_neg (by rw [hroom]; decide), memWrite_eq_next.2 ⟨hw, rfl⟩]
  rfl

/-- Settles O17: without SYNC_LAG the producer sees the queue itself. -/
theorem tryPushStoresOrDrops : Obligations.TryPushStoresOrDrops := by
  unfold Obligations.TryPushStoresOrDrops
  intro s sel f hp hl hw
  have hv := State.producerView_exact sel hl
  have hflag : (s.producerView sel).fullFlag s.params.syncLag = ((s.queue sel).count == (s.queue sel).cap) := by
    rw [hv, hl]; rfl
  refine ⟨fun hfull => ?_, fun hroom => ⟨_, ?_, Memory.read_write_same _ _ f,
    fun j hj => Memory.read_write_other _ _ j f hj⟩⟩
  · rw [exec_tryPush_full f hp (hflag.trans (beq_iff_eq.2 hfull)), State.drawPick_setQueue_exact sel _ hl, hv]
    rfl
  · rw [exec_tryPush_room f hp (hflag.trans (beq_eq_false_iff_ne.2 hroom)) hw, State.drawPick_setQueue_exact sel _ hl, hv]
    rfl

/-- Settles O18: with SYNC_LAG the producer sees the queue with its copy drawn anew. -/
theorem tryPushUnderSyncLag : Obligations.TryPushUnderSyncLag := by
  unfold Obligations.TryPushUnderSyncLag
  intro s sel f hp hl h
  have hinv := State.producerView_inv hl h
  obtain ⟨seen, hge, hle, hv⟩ := State.producerView_lag hl h
  have hflag : (s.producerView sel).fullFlag s.params.syncLag =
      decide ((s.queue sel).pushes - seen = (s.queue sel).cap) := by
    rw [hl]
    refine hinv.fullTo_producer.trans ?_
    rw [hv]
  refine ⟨seen, s.drawPick.2.oracle, hge, hle, fun hfull => ?_, fun hne => ?_⟩
  · rw [exec_tryPush_full f hp (hflag.trans (decide_eq_true hfull)), State.drawPick_setQueue, hv]
    rfl
  · have hroom := hflag.trans (decide_eq_false hne)
    refine ⟨?_, _, ?_, Memory.read_write_same _ _ f, fun j hj => Memory.read_write_other _ _ j f hj⟩
    · have := hinv.room (hl ▸ hroom)
      rwa [hv] at this
    · rw [exec_tryPush_room f hp hroom h.wptrLt, State.drawPick_setQueue, hv]
      rfl

/-! ### TRY_POP -/

/-- Where the consumer sees the queue empty, TRY_POP returns none (rule R101). -/
theorem exec_tryPop_empty {s : State} {sel : QueueSel} (hp : permitted s.issuer (.tryPop sel) = true)
    (hempty : (s.consumerView sel).emptyFlag s.params.syncLag = true) :
    exec (.tryPop sel) s = .next ((s.drawPick.2.setQueue sel (s.consumerView sel)).finish (.optFrame none) none) := by
  refine withContext_eq_next.2 ⟨hp, ?_⟩
  rw [State.tryPop, Queue.tryPop, ← State.consumerView, if_pos hempty]
  rfl

/-- Where the consumer sees a record, TRY_POP takes the one at the read pointer (rule R101). -/
theorem exec_tryPop_queued {s : State} {sel : QueueSel} (hp : permitted s.issuer (.tryPop sel) = true)
    (hqueued : (s.consumerView sel).emptyFlag s.params.syncLag = false) (hr : (s.queue sel).rptr < (s.queue sel).cap) :
    exec (.tryPop sel) s =
      .next ((s.drawPick.2.setQueue sel (s.consumerView sel).afterPop).finish
        (.optFrame (some ((s.queue sel).slotValue sel (s.queue sel).rptr))) none) := by
  refine withContext_eq_next.2 ⟨hp, ?_⟩
  rw [State.tryPop, Queue.tryPop, ← State.consumerView, if_neg (by rw [hqueued]; decide), memRead_eq_next.2 ⟨hr, rfl⟩]
  rfl

/-- Settles O19: without SYNC_LAG the consumer sees the queue itself. -/
theorem tryPopReturnsTheOldest : Obligations.TryPopReturnsTheOldest := by
  unfold Obligations.TryPopReturnsTheOldest
  intro s sel hp hl hr
  have hv := State.consumerView_exact sel hl
  have hflag : (s.consumerView sel).emptyFlag s.params.syncLag = ((s.queue sel).count == 0) := by
    rw [hv, hl]; rfl
  refine ⟨fun hempty => ?_, fun hqueued => ?_⟩
  · rw [exec_tryPop_empty hp (hflag.trans (beq_iff_eq.2 hempty)), State.drawPick_setQueue_exact sel _ hl, hv,
      State.setQueue_queue]
    rfl
  · rw [exec_tryPop_queued hp (hflag.trans (beq_eq_false_iff_ne.2 hqueued)) hr, State.drawPick_setQueue_exact sel _ hl, hv]
    rfl

/-- Settles O20: with SYNC_LAG the consumer sees the queue with its copy drawn anew. -/
theorem tryPopUnderSyncLag : Obligations.TryPopUnderSyncLag := by
  unfold Obligations.TryPopUnderSyncLag
  intro s sel hp hl h
  have hinv := State.consumerView_inv hl h
  obtain ⟨seen, hge, hle, hv⟩ := State.consumerView_lag hl h
  have hflag : (s.consumerView sel).emptyFlag s.params.syncLag = decide (seen - (s.queue sel).pops = 0) := by
    rw [hl]
    refine hinv.emptyTo_consumer.trans ?_
    rw [hv]
  refine ⟨seen, s.drawPick.2.oracle, hge, hle, fun hempty => ?_, fun hne => ?_⟩
  · rw [exec_tryPop_empty hp (hflag.trans (decide_eq_true hempty)), State.drawPick_setQueue, hv]
    rfl
  · have hqueued := hflag.trans (decide_eq_false hne)
    refine ⟨?_, ?_⟩
    · have := hinv.queued (hl ▸ hqueued)
      rwa [hv] at this
    · rw [exec_tryPop_queued hp hqueued h.rptrLt, State.drawPick_setQueue, hv]
      rfl

/-! ### The flags -/

theorem State.flagQueue_producer {s : State} {own : Side} {sel : QueueSel}
    (h : askingSide own s.issuer sel = .producer) : s.flagQueue own sel = s.producerView sel := by
  rw [State.flagQueue, h]; rfl

theorem State.flagQueue_consumer {s : State} {own : Side} {sel : QueueSel}
    (h : askingSide own s.issuer sel = .consumer) : s.flagQueue own sel = s.consumerView sel := by
  rw [State.flagQueue, h]; rfl

/-- Either context may ask, and beside the result only the copy of the side that asks moves (rules R61, R102). -/
theorem exec_isEmpty_eq (s : State) (sel : QueueSel) :
    exec (.isEmpty sel) s = .next { s.setQueue sel (s.flagQueue .consumer sel) with
      oracle := s.drawPick.2.oracle, cause := none
      result := .bool ((s.flagQueue .consumer sel).emptyTo (askingSide .consumer s.issuer sel) s.params.syncLag) } := by
  change Host.Outcome.next ((s.testEmpty sel).2.finish (.bool (s.testEmpty sel).1) none) = _
  rw [State.testEmpty, State.drawPick_setQueue]
  rfl

theorem exec_isFull_eq (s : State) (sel : QueueSel) :
    exec (.isFull sel) s = .next { s.setQueue sel (s.flagQueue .producer sel) with
      oracle := s.drawPick.2.oracle, cause := none
      result := .bool ((s.flagQueue .producer sel).fullTo (askingSide .producer s.issuer sel) s.params.syncLag) } := by
  change Host.Outcome.next ((s.testFull sel).2.finish (.bool (s.testFull sel).1) none) = _
  rw [State.testFull, State.drawPick_setQueue]
  rfl

/-- The side from which a context asks for emptiness: NOTIFY is the producer of RXQ (rules R58, R61). -/
theorem askingSide_empty_consumer {c : Context} {sel : QueueSel} (h : sel = .tx ∨ c = .poll) :
    askingSide .consumer c sel = .consumer := by
  rcases h with rfl | rfl
  · cases c <;> rfl
  · exact askingSide_empty_poll sel

theorem askingSide_full_producer {c : Context} {sel : QueueSel} (h : (sel = .rx ∧ c = .notify) ∨ (sel = .tx ∧ c = .poll)) :
    askingSide .producer c sel = .producer := by
  rcases h with ⟨rfl, rfl⟩ | ⟨rfl, rfl⟩ <;> rfl

theorem askingSide_full_consumer {c : Context} {sel : QueueSel} (h : (sel = .rx ∧ c = .poll) ∨ (sel = .tx ∧ c = .notify)) :
    askingSide .producer c sel = .consumer := by
  rcases h with ⟨rfl, rfl⟩ | ⟨rfl, rfl⟩ <;> rfl

/-- Settles O22: of each queue and context the side that asks, and what that side sees. -/
theorem flagsUnderSyncLag : Obligations.FlagsUnderSyncLag := by
  unfold Obligations.FlagsUnderSyncLag
  intro s sel hl h
  obtain ⟨popsSeen, hpge, hple, hp⟩ := State.producerView_lag hl h
  obtain ⟨pushesSeen, hcge, hcle, hc⟩ := State.consumerView_lag hl h
  have hpi := State.producerView_inv hl h
  have hci := State.consumerView_inv hl h
  refine ⟨fun hq => ⟨pushesSeen, s.drawPick.2.oracle, hcge, hcle, ?_⟩,
    fun hq hn => ⟨popsSeen, s.drawPick.2.oracle, hpge, hple, ?_⟩,
    fun hq => ⟨popsSeen, s.drawPick.2.oracle, hpge, hple, ?_⟩,
    fun hq => ⟨pushesSeen, s.drawPick.2.oracle, hcge, hcle, ?_⟩⟩
  · have hside := askingSide_empty_consumer hq
    rw [exec_isEmpty_eq, State.flagQueue_consumer hside, hside, hl, hci.emptyTo_consumer, hc]
  · have hside : askingSide .consumer s.issuer sel = .producer := by rw [hq, hn]; rfl
    rw [exec_isEmpty_eq, State.flagQueue_producer hside, hside, hl, hpi.emptyTo_producer, hp]
  · have hside := askingSide_full_producer hq
    rw [exec_isFull_eq, State.flagQueue_producer hside, hside, hl, hpi.fullTo_producer, hp]
  · have hside := askingSide_full_consumer hq
    rw [exec_isFull_eq, State.flagQueue_consumer hside, hside, hl, hci.fullTo_consumer, hc]

end Sys2Proof.Machine

/-! PROOF. O31: the micro-steps of TRY_PUSH and TRY_POP refine the atomic operations. An operation takes effect in the step
that completes it. Until then the atomic queue differs from the micro queue only by the record that W2 has written ahead of
the write pointer, and what W1, P1 and P2 have found stays true of it: the other agent can only make room or add records. -/
namespace Sys2Proof.Machine

/-! ### The ring -/

/-- The part of the queue's invariant that speaks of the pointers and the occupancy (rules R24 to R26). It asks nothing of
the records, so it is kept by pushes of any record. -/
structure Queue.Ring (q : Queue) : Prop where
  rptrLt : q.rptr < q.cap
  countLe : q.count ≤ q.cap
  ring : q.wptr = (q.rptr + q.count) % q.cap

theorem Queue.Inv.toRing {lag : Bool} {q : Queue} (h : q.Inv lag) : q.Ring := ⟨h.rptrLt, h.countLe, h.ring⟩

theorem Queue.Ring.wptrLt {q : Queue} (h : q.Ring) : q.wptr < q.cap :=
  h.ring ▸ Nat.mod_lt _ (Nat.zero_lt_of_lt h.rptrLt)

/-- With room left the write pointer is at none of the queued records. -/
theorem Queue.Ring.queued_ne_wptr {q : Queue} (h : q.Ring) (hroom : q.count < q.cap) {k : Nat} (hk : k < q.count) :
    (q.rptr + k) % q.cap ≠ q.wptr :=
  h.ring ▸ ring_index_ne hk hroom

theorem Queue.Ring.rptr_ne_wptr {q : Queue} (h : q.Ring) (hroom : q.count < q.cap) (hq : 0 < q.count) :
    q.rptr ≠ q.wptr := by
  simpa [Nat.mod_eq_of_lt h.rptrLt] using h.queued_ne_wptr hroom hq

theorem Queue.Ring.afterPush {q : Queue} (h : q.Ring) (hroom : q.count < q.cap) (m : Memory) : (q.afterPush m).Ring where
  rptrLt := h.rptrLt
  countLe := hroom
  ring := by
    change (q.wptr + 1) % q.cap = (q.rptr + (q.count + 1)) % q.cap
    rw [h.ring, ring_advance]

theorem Queue.Ring.afterPop {q : Queue} (h : q.Ring) (hq : 0 < q.count) : q.afterPop.Ring where
  rptrLt := Nat.mod_lt _ (Nat.zero_lt_of_lt h.rptrLt)
  countLe := Nat.le_trans (Nat.sub_le _ _) h.countLe
  ring := by
    change q.wptr = ((q.rptr + 1) % q.cap + (q.count - 1)) % q.cap
    rw [ring_advance_front, Nat.sub_add_cancel hq, h.ring]

theorem Queue.Ring.afterDrop {q : Queue} (h : q.Ring) : q.afterDrop.Ring := ⟨h.rptrLt, h.countLe, h.ring⟩

/-! ### The atomic operations without SYNC_LAG -/

theorem Queue.tryPush_exact_full {q : Queue} (f : FrameRecord) (h : q.count = q.cap) :
    q.tryPush false 0 f = .next (false, q.afterDrop) :=
  if_pos (beq_iff_eq.2 h)

theorem Queue.Ring.tryPush_room {q : Queue} (h : q.Ring) (f : FrameRecord) (hroom : q.count < q.cap) :
    q.tryPush false 0 f = .next (true, q.afterPush (q.slots.write q.wptr f)) := by
  have hflag : ¬ q.fullFlag false = true := by
    rw [Queue.fullFlag, if_neg (by decide), beq_iff_eq]; omega
  rw [Queue.tryPush, Queue.refreshProducer_exact, if_neg hflag, memWrite_eq_next.2 ⟨h.wptrLt, rfl⟩]
  rfl

theorem Queue.tryPop_exact_empty {q : Queue} (sel : QueueSel) (h : q.count = 0) :
    q.tryPop sel false 0 = .next (none, q) :=
  if_pos (beq_iff_eq.2 h)

theorem Queue.Ring.tryPop_queued {q : Queue} (h : q.Ring) (sel : QueueSel) (hq : 0 < q.count) :
    q.tryPop sel false 0 = .next (some (q.slotValue sel q.rptr), q.afterPop) := by
  have hflag : ¬ q.emptyFlag false = true := by
    rw [Queue.emptyFlag, if_neg (by decide), beq_iff_eq]; omega
  rw [Queue.tryPop, Queue.refreshConsumer_exact, if_neg hflag, memRead_eq_next.2 ⟨h.rptrLt, rfl⟩]
  rfl

/-! ### The relation -/

/-- The queue with a record written ahead of the write pointer, as W2 leaves it (rule R188). -/
def Queue.writeAhead (q : Queue) (f : FrameRecord) : Queue := { q with slots := q.slots.write q.wptr f }

/-- The micro queue, when the atomic one is `p` and the producer stands at this position. -/
def PushPos.queueOf (p : Queue) : PushPos → Queue
  | .beforeW3 f => p.writeAhead f
  | _ => p

/-- What the producer has found out at this position: after W1 there is room. -/
def PushPos.Found (p : Queue) : PushPos → Prop
  | .beforeW2 _ | .beforeW3 _ => p.count < p.cap
  | _ => True

/-- What the consumer has found out at this position: after P1 a record is queued, after P2 it is the oldest. -/
def PopPos.Found (sel : QueueSel) (p : Queue) : PopPos → Prop
  | .beforeP2 => 0 < p.count
  | .beforeP3 f => 0 < p.count ∧ p.slotValue sel p.rptr = f
  | _ => True

/-- The micro queue stands for the atomic queue `p`, which has performed the operations completed so far. -/
structure MicroQueue.Refines (sel : QueueSel) (m : MicroQueue) (p : Queue) : Prop where
  ring : p.Ring
  queue : m.queue = m.push.queueOf p
  push : m.push.Found p
  pop : m.pop.Found sel p

theorem PushPos.queueOf_cases (p : Queue) (a : PushPos) :
    a.queueOf p = p ∨ ∃ f, a = .beforeW3 f ∧ a.queueOf p = p.writeAhead f := by
  cases a with
  | beforeW3 f => exact .inr ⟨f, rfl, rfl⟩
  | _ => exact .inl rfl

/-- A record queued is read the same from the micro queue (rule R188). -/
theorem MicroQueue.Refines.slotValue {sel : QueueSel} {m : MicroQueue} {p : Queue} (h : m.Refines sel p) {k : Nat}
    (hk : k < p.count) : m.queue.slotValue sel ((p.rptr + k) % p.cap) = p.slotValue sel ((p.rptr + k) % p.cap) := by
  rw [h.queue]
  rcases m.push.queueOf_cases p with e | ⟨f, hf, e⟩
  · rw [e]
  · have hroom : p.count < p.cap := by simpa [hf, PushPos.Found] using h.push
    rw [e, Queue.slotValue, Queue.slotValue, Queue.writeAhead,
      Memory.read_write_other _ _ _ _ (h.ring.queued_ne_wptr hroom hk)]

theorem MicroQueue.Refines.queue_eq {sel : QueueSel} {m : MicroQueue} {p : Queue} (h : m.Refines sel p) :
    m.queue = { p with slots := m.queue.slots } := by
  rw [h.queue]
  cases m.push <;> rfl

/-- The two queues differ at most in a slot that holds no queued record. -/
theorem MicroQueue.Refines.sameRing {sel : QueueSel} {m : MicroQueue} {p : Queue} (h : m.Refines sel p) :
    p.SameRing sel m.queue := by
  have e := h.queue_eq
  have hc : p.contents sel = m.queue.contents sel := by
    unfold Queue.contents
    rw [show m.queue.count = p.count by rw [e], show m.queue.rptr = p.rptr by rw [e], show m.queue.cap = p.cap by rw [e]]
    exact List.map_congr_left fun k hk => (h.slotValue (List.mem_range.1 hk)).symm
  refine ⟨?_, ?_, ?_, ?_, ?_, ?_, hc⟩ <;> rw [e]

/-! ### One move -/

/-- What the consumer has found out outlives a step that adds records and keeps the oldest. -/
theorem PopPos.Found.of_more {sel : QueueSel} {p p' : Queue} {c : PopPos} (h : c.Found sel p) (hc : p.count ≤ p'.count)
    (hslot : 0 < p.count → p'.slotValue sel p'.rptr = p.slotValue sel p.rptr) : c.Found sel p' := by
  cases c with
  | idle | beforeP1 => trivial
  | beforeP2 => exact Nat.lt_of_lt_of_le h hc
  | beforeP3 f =>
    obtain ⟨hq, hf⟩ := h
    exact ⟨Nat.lt_of_lt_of_le hq hc, (hslot hq).trans hf⟩

/-- What the producer has found out outlives a step that makes room. -/
theorem PushPos.Found.afterPop {p : Queue} {a : PushPos} (h : a.Found p) : a.Found p.afterPop := by
  cases a with
  | idle | beforeW1 _ => trivial
  | beforeW2 _ | beforeW3 _ => exact Nat.lt_of_le_of_lt (Nat.sub_le _ _) h

theorem PushPos.queueOf_afterPop (p : Queue) (a : PushPos) : a.queueOf p.afterPop = (a.queueOf p).afterPop := by
  cases a <;> rfl

/-- The micro-step answers, and the atomic queue `p` answers its event with the same result and is refined again. -/
def Queue.Tracks (sel : QueueSel) (p : Queue) (o : Res (MicroEvent × MicroQueue)) : Prop :=
  ∃ (e : MicroEvent) (m : MicroQueue) (p' : Queue),
    o = .next (e, m) ∧ p.atomicEvent sel e = .next (e, p') ∧ m.Refines sel p'

/-- A step that completes no operation is tracked by standing still. -/
theorem Queue.Tracks.silent {sel : QueueSel} {p : Queue} {m : MicroQueue} (h : m.Refines sel p) :
    p.Tracks sel (.next (.silent, m)) := ⟨_, m, p, rfl, rfl, h⟩

/-! What each micro-step that tests or accesses the slots does (rule R188). -/

theorem MicroQueue.producerStep_full {q : Queue} (f : FrameRecord) (c : PopPos) (h : q.count = q.cap) :
    MicroQueue.producerStep ⟨q, .beforeW1 f, c⟩ = .next (.pushed f false, ⟨q.afterDrop, .idle, c⟩) :=
  if_pos (beq_iff_eq.2 h)

theorem MicroQueue.producerStep_room {q : Queue} (f : FrameRecord) (c : PopPos) (h : q.count ≠ q.cap) :
    MicroQueue.producerStep ⟨q, .beforeW1 f, c⟩ = .next (.silent, ⟨q, .beforeW2 f, c⟩) :=
  if_neg (mt beq_iff_eq.1 h)

theorem MicroQueue.producerStep_write {q : Queue} (f : FrameRecord) (c : PopPos) (h : q.wptr < q.cap) :
    MicroQueue.producerStep ⟨q, .beforeW2 f, c⟩ = .next (.silent, ⟨q.writeAhead f, .beforeW3 f, c⟩) := by
  change andThen (memWrite q q.wptr f) _ = _
  rw [memWrite_eq_next.2 ⟨h, rfl⟩]
  rfl

theorem MicroQueue.consumerStep_empty {q : Queue} (sel : QueueSel) (a : PushPos) (h : q.count = 0) :
    MicroQueue.consumerStep sel ⟨q, a, .beforeP1⟩ = .next (.popped none, ⟨q, a, .idle⟩) :=
  if_pos (beq_iff_eq.2 h)

theorem MicroQueue.consumerStep_queued {q : Queue} (sel : QueueSel) (a : PushPos) (h : q.count ≠ 0) :
    MicroQueue.consumerStep sel ⟨q, a, .beforeP1⟩ = .next (.silent, ⟨q, a, .beforeP2⟩) :=
  if_neg (mt beq_iff_eq.1 h)

theorem MicroQueue.consumerStep_read {q : Queue} (sel : QueueSel) (a : PushPos) (h : q.rptr < q.cap) :
    MicroQueue.consumerStep sel ⟨q, a, .beforeP2⟩ = .next (.silent, ⟨q, a, .beforeP3 (q.slotValue sel q.rptr)⟩) := by
  change andThen (memRead sel q q.rptr) _ = _
  rw [memRead_eq_next.2 ⟨h, rfl⟩]
  rfl

/-- W1, W2 and W3: the push takes effect in a W1 that finds no room or in W3 (rule R188). -/
theorem MicroQueue.Refines.producerStep {sel : QueueSel} {m : MicroQueue} {p : Queue} (h : m.Refines sel p) :
    p.Tracks sel m.producerStep := by
  obtain ⟨q, a, c⟩ := m
  obtain ⟨hring, hqueue, hpush, hpop⟩ := h
  dsimp only at hqueue hpush hpop
  cases a with
  | idle => exact .silent ⟨hring, hqueue, hpush, hpop⟩
  | beforeW1 f =>
    obtain rfl : q = p := hqueue
    by_cases hfull : q.count = q.cap
    · refine ⟨.pushed f false, ⟨q.afterDrop, .idle, c⟩, q.afterDrop, MicroQueue.producerStep_full f c hfull, ?_,
        hring.afterDrop, rfl, trivial, hpop.of_more (Nat.le_refl _) fun _ => rfl⟩
      rw [Queue.atomicEvent, Queue.tryPush_exact_full f hfull]
      rfl
    · rw [MicroQueue.producerStep_room f c hfull]
      exact .silent ⟨hring, rfl, Nat.lt_of_le_of_ne hring.countLe hfull, hpop⟩
  | beforeW2 f =>
    obtain rfl : q = p := hqueue
    rw [MicroQueue.producerStep_write f c hring.wptrLt]
    exact .silent ⟨hring, rfl, hpush, hpop⟩
  | beforeW3 f =>
    obtain rfl : q = p.writeAhead f := hqueue
    have hroom : p.count < p.cap := hpush
    refine ⟨.pushed f true, ⟨p.afterPush (p.slots.write p.wptr f), .idle, c⟩, _, rfl, ?_,
      hring.afterPush hroom _, rfl, trivial, hpop.of_more (Nat.le_succ _) fun hq => ?_⟩
    · rw [Queue.atomicEvent, hring.tryPush_room f hroom]
      rfl
    · exact congrArg (Option.getD · _) (Memory.read_write_other _ _ _ f (hring.rptr_ne_wptr hroom hq))

/-- P1, P2 and P3: the pop takes effect in a P1 that finds no record or in P3 (rule R188). -/
theorem MicroQueue.Refines.consumerStep {sel : QueueSel} {m : MicroQueue} {p : Queue} (h : m.Refines sel p) :
    p.Tracks sel (m.consumerStep sel) := by
  have hcount : m.queue.count = p.count := by rw [h.queue_eq]
  have hrptr : m.queue.rptr = p.rptr := by rw [h.queue_eq]
  have hcap : m.queue.cap = p.cap := by rw [h.queue_eq]
  have hslot (hq : 0 < p.count) : m.queue.slotValue sel p.rptr = p.slotValue sel p.rptr := by
    simpa [Nat.mod_eq_of_lt h.ring.rptrLt] using h.slotValue hq
  obtain ⟨q, a, c⟩ := m
  obtain ⟨hring, hqueue, hpush, hpop⟩ := h
  dsimp only at hqueue hpush hpop hcount hrptr hcap hslot
  cases c with
  | idle => exact .silent ⟨hring, hqueue, hpush, hpop⟩
  | beforeP1 =>
    by_cases hempty : p.count = 0
    · refine ⟨.popped none, ⟨q, a, .idle⟩, p, MicroQueue.consumerStep_empty sel a (hcount.trans hempty), ?_,
        hring, hqueue, hpush, trivial⟩
      rw [Queue.atomicEvent, Queue.tryPop_exact_empty sel hempty]
      rfl
    · rw [MicroQueue.consumerStep_queued sel a (hcount ▸ hempty)]
      exact .silent ⟨hring, hqueue, hpush, Nat.pos_of_ne_zero hempty⟩
  | beforeP2 =>
    have hq : 0 < p.count := hpop
    rw [MicroQueue.consumerStep_read sel a (hrptr ▸ hcap ▸ hring.rptrLt), hrptr, hslot hq]
    exact .silent ⟨hring, hqueue, hpush, hq, rfl⟩
  | beforeP3 f =>
    obtain ⟨hq, rfl⟩ := hpop
    refine ⟨.popped _, ⟨q.afterPop, a, .idle⟩, p.afterPop, rfl, ?_, hring.afterPop hq, ?_, hpush.afterPop, trivial⟩
    · rw [Queue.atomicEvent, hring.tryPop_queued sel hq]
      rfl
    · rw [PushPos.queueOf_afterPop, ← hqueue]

/-- Issuing an operation changes neither queue. -/
theorem MicroQueue.Refines.move {sel : QueueSel} {m : MicroQueue} {p : Queue} (h : m.Refines sel p) (a : MicroMove) :
    p.Tracks sel (m.move sel a) := by
  cases a with
  | startPush f =>
    obtain ⟨q, a, c⟩ := m
    obtain ⟨hring, hqueue, hpush, hpop⟩ := h
    cases a with
    | idle => exact .silent ⟨hring, hqueue, trivial, hpop⟩
    | _ => exact .silent ⟨hring, hqueue, hpush, hpop⟩
  | startPop =>
    obtain ⟨q, a, c⟩ := m
    obtain ⟨hring, hqueue, hpush, hpop⟩ := h
    cases c with
    | idle => exact .silent ⟨hring, hqueue, hpush, trivial⟩
    | _ => exact .silent ⟨hring, hqueue, hpush, hpop⟩
  | producer => exact h.producerStep
  | consumer => exact h.consumerStep

/-! ### A whole interleaving -/

/-- The atomic run of the events but the silent ones, which it performs by standing still. -/
theorem Queue.atomicRun_cons_visible {sel : QueueSel} {p p' r : Queue} {e : MicroEvent} {es : List MicroEvent}
    (he : p.atomicEvent sel e = .next (e, p')) (hes : p'.atomicRun sel es = .next (es, r)) :
    p.atomicRun sel (if e = .silent then es else e :: es) = .next (if e = .silent then es else e :: es, r) := by
  split
  case isTrue hs =>
    subst hs
    cases he
    exact hes
  case isFalse => rw [Queue.atomicRun, he, andThen_next, hes, andThen_next]

theorem MicroQueue.Refines.run {sel : QueueSel} {m : MicroQueue} {p : Queue} (moves : List MicroMove)
    (h : m.Refines sel p) : ∃ events m' p', m.run sel moves = .next (events, m') ∧
      p.atomicRun sel events = .next (events, p') ∧ m'.Refines sel p' := by
  induction moves generalizing m p with
  | nil => exact ⟨[], m, p, rfl, rfl, h⟩
  | cons a rest ih =>
    obtain ⟨e, m₁, p₁, hm, hp, h₁⟩ := h.move a
    obtain ⟨es, m₂, p₂, hrun, hatomic, h₂⟩ := ih h₁
    refine ⟨_, m₂, p₂, ?_, Queue.atomicRun_cons_visible hp hatomic, h₂⟩
    rw [MicroQueue.run, hm, andThen_next, hrun, andThen_next]

/-- Settles O31: both agents start idle on a queue that refines itself. -/
theorem microStepsRefineAtomicOperations : Obligations.MicroStepsRefineAtomicOperations := by
  unfold Obligations.MicroStepsRefineAtomicOperations
  intro sel q moves h
  have hr : MicroQueue.Refines sel ⟨q, .idle, .idle⟩ q := ⟨h.toRing, rfl, trivial, trivial⟩
  obtain ⟨events, m, p, hrun, hatomic, hm⟩ := hr.run moves
  exact ⟨events, m, p, hrun, hatomic, hm.sameRing⟩

end Sys2Proof.Machine

/-! PROOF. O54: reads, flags and the codec write no register. -/
namespace Sys2Proof.Machine

/-- An ENCODE that answers only counts its free tail bytes (rules R90, R94). -/
theorem execEncode_eq {f : FrameRecord} {s t : State} (h : execEncode f s = .next t) :
    t = { s with result := t.result, cause := none, oracle := { s.oracle with tails := t.oracle.tails } } := by
  obtain ⟨-, h⟩ := withContext_eq_next.1 h
  obtain ⟨⟨w, u⟩, hu, h⟩ := andThen_eq_next.1 h
  unfold State.encodeOp at hu
  split at hu
  · cases hu; cases h; rfl
  · cases hu

/-- An operation that answers by returning a value alone (rule R65). -/
theorem eq_of_finish {s t : State} {r : Result} (h : Host.Outcome.next (s.finish r none) = (.next t : Res State)) :
    t = { s with result := t.result, cause := none, oracle := { s.oracle with tails := t.oracle.tails } } := by
  cases h
  rfl

theorem exec_isRead_eq {i : Instr} {s t : State} (hi : i.isRead = true) (h : exec i s = .next t) :
    t = { s with result := t.result, cause := none, oracle := { s.oracle with tails := t.oracle.tails } } := by
  obtain ⟨r, hr⟩ := exec_isRead s hi
  exact eq_of_finish (withContext_eq_next.1 (hr.symm.trans h)).2

/-- Settles O54: but for ENCODE each of them only returns a value, the flags since no copy is drawn without SYNC_LAG. -/
theorem readsAndCodecWriteNothing : Obligations.ReadsAndCodecWriteNothing := by
  unfold Obligations.ReadsAndCodecWriteNothing
  intro i s t hl h
  cases i with
  | encode f => exact execEncode_eq h
  | isEmpty q => exact eq_of_finish ((execIsEmpty_exact q hl).symm.trans h)
  | isFull q => exact eq_of_finish ((execIsFull_exact q hl).symm.trans h)
  | decode _ | rdPushed _ | rdDropped _ | receivedCount | sentCount | sendErrorCount | wireidStdData _
  | wireidStdRemote _ | wireidExtData _ | wireidExtRemote _ =>
    exact exec_isRead_eq rfl h
  | _ => trivial

end Sys2Proof.Machine

/-! PROOF. O6, O58: a notification reads neither who issues operations nor what is still to come, so it does the same
wherever it runs. -/
namespace Sys2Proof.Machine

/-! ### What a notification does not read -/

theorem andThen_congr {α β : Type} {o : Res α} {k k' : α → Res β} (h : ∀ a, o = .next a → k a = k' a) :
    andThen o k = andThen o k' := by
  cases o with
  | next a => exact h a rfl
  | fault e => rfl
  | refused r => rfl

/-- The state with another issuer and other arrivals: what a notification does not read. -/
def State.amid (s : State) (c : Context) (l : List Arrival) : State := { s with issuer := c, arrivals := l }

theorem State.drawPick_amid (s : State) (c : Context) (l : List Arrival) :
    (s.amid c l).drawPick = (s.drawPick.1, s.drawPick.2.amid c l) := by
  unfold State.drawPick State.amid
  dsimp only
  split
  · split <;> rfl
  · rfl

/-- A notification leaves the issuer and the arrivals where it finds them (rules R39, R161). -/
theorem State.notify_amid (s : State) (n : Notification) (c : Context) (l : List Arrival) :
    (s.amid c l).notify n = andThen (s.notify n) fun r => .next (r.1, r.2.amid c l) := by
  cases n with
  | rxComplete w =>
    have hpush (f : FrameRecord) : (s.amid c l).tryPush .rx f =
        andThen (s.tryPush .rx f) fun r => .next (r.1, r.2.amid c l) := by
      rw [State.tryPush, State.tryPush, State.drawPick_amid, andThen_assoc]
      rfl
    change andThen ((s.amid c l).tryPush .rx (decodeWire s.params.idMask w)) _ = andThen (andThen _ _) _
    rw [hpush, andThen_assoc, andThen_assoc]
    rfl
  | txComplete w => rfl
  | error w => rfl

theorem State.notify_keeps_amid {s : State} {n : Notification} {r : Option ErrorClass × State} (h : s.notify n = .next r) :
    r.2.issuer = s.issuer ∧ r.2.arrivals = s.arrivals := by
  have hs : s.notify n = andThen (s.notify n) fun r => .next (r.1, r.2.amid s.issuer s.arrivals) :=
    s.notify_amid n s.issuer s.arrivals
  rw [h, andThen_next] at hs
  rw [Host.Outcome.next.inj hs]
  exact ⟨rfl, rfl⟩

theorem State.notify_arrivals (s : State) (n : Notification) (l : List Arrival) :
    State.notify { s with arrivals := l } n = andThen (s.notify n) fun r => .next (r.1, { r.2 with arrivals := l }) := by
  refine (s.notify_amid n s.issuer l).trans (andThen_congr fun r hr => ?_)
  rw [State.amid, ← (State.notify_keeps_amid hr).1]

theorem State.notify_issuer (s : State) (n : Notification) (c : Context) :
    State.notify { s with issuer := c } n = andThen (s.notify n) fun r => .next (r.1, { r.2 with issuer := c }) := by
  refine (s.notify_amid n c s.arrivals).trans (andThen_congr fun r hr => ?_)
  rw [State.amid, ← (State.notify_keeps_amid hr).2]

/-! ### A preemption point -/

theorem State.serve_due (s : State) (n : Notification) (rest : List Arrival) :
    s.serve ({ gap := 0, event := n } :: rest) = andThen (s.notify n) fun r => r.2.serve rest := rfl

theorem State.serve_later (s : State) (g : Nat) (n : Notification) (rest : List Arrival) :
    s.serve ({ gap := g + 1, event := n } :: rest) = .next { s with arrivals := { gap := g, event := n } :: rest } := rfl

theorem State.preempt_started {s : State} (h : s.started.isSome = true) : s.preempt = s.serve s.arrivals := if_pos h

/-- The notifications due are taken from the list that is served, and the state's own list is written anew. -/
theorem State.serve_arrivals (s : State) (l l' : List Arrival) : State.serve { s with arrivals := l' } l = s.serve l := by
  induction l generalizing s with
  | nil => rfl
  | cons a rest ih =>
    obtain ⟨gap, n⟩ := a
    cases gap with
    | zero =>
      rw [State.serve_due, State.serve_due, State.notify_arrivals, andThen_assoc]
      exact andThen_congr fun r _ => ih r.2
    | succ g => rfl

theorem State.preempt_arrivals {s : State} (l : List Arrival) (h : s.started.isSome = true) :
    State.preempt { s with arrivals := l } = s.serve l :=
  (State.preempt_started (s := { s with arrivals := l }) h).trans (s.serve_arrivals l l)

/-- With no NOTIFY_RX due, a preemption point counts the bus errors due and nothing else (rules R126, R127). -/
theorem State.serve_of_not_rxDue (s : State) {l : List Arrival} (h : rxDue l = false) :
    s.serve l = .next { s with busErrors := s.busErrors + errorsDue l, arrivals := laterArrivals l } := by
  induction l generalizing s with
  | nil => rfl
  | cons a rest ih =>
    obtain ⟨gap, n⟩ := a
    cases gap with
    | succ g => rfl
    | zero =>
      cases n with
      | rxComplete w => cases h
      | txComplete w => exact ih s h
      | error w =>
        refine (ih { s with busErrors := s.busErrors + 1 } h).trans ?_
        rw [Nat.add_right_comm]
        rfl

/-! ### The block with nothing presented -/

theorem step_idle {s : State} (h : s.requests = []) : step s = s.preempt := by
  rw [step, h]

theorem State.NotifiedTo.requests {s t : State} (h : s.NotifiedTo t) : t.requests = s.requests := by
  obtain ⟨q, n, a, ps, k, rfl, -, -⟩ := h; rfl

/-- An idle step runs the first notification that is due, and the rest is an idle step on what it leaves (rule R160). -/
theorem step_idle_due {s : State} {n : Notification} {rest : List Arrival} (hs : s.requests = [])
    (he : s.started.isSome = true) (ha : s.arrivals = { gap := 0, event := n } :: rest) :
    step s = andThen (s.notify n) fun r => step { r.2 with arrivals := rest } := by
  rw [step_idle hs, State.preempt_started he, ha, State.serve_due]
  refine andThen_congr fun r hr => ?_
  have hn := State.notify_notifiedTo (c := r.1) (t := r.2) hr
  have hstep : step { r.2 with arrivals := rest } = State.preempt { r.2 with arrivals := rest } :=
    step_idle (hn.requests.trans hs)
  rw [hstep, State.preempt_arrivals rest (hn.started ▸ he)]

theorem whenNotifiable_running {s : State} {k : Res State} (h : s.runState = .running) : whenNotifiable s k = k := by
  rw [whenNotifiable, h]

/-- A notification presented by NOTIFY does what it does when it runs in, and the result and the error class are added
(rules R150, R157, R163). -/
theorem State.notify_presented {s : State} {i : Instr} (hr : s.runState = .running) (hp : permitted .notify i = true)
    (n : Notification) :
    withContext i { s with issuer := .notify }
        (whenNotifiable { s with issuer := .notify } (State.notifyOp { s with issuer := .notify } n)) =
      andThen (s.notify n) fun r => .next { r.2 with issuer := .notify, result := .none, cause := r.1 } := by
  refine (if_pos hp).trans ((whenNotifiable_running hr).trans ?_)
  rw [State.notifyOp, State.notify_issuer, andThen_assoc]
  rfl

/-- Settles O6: an idle step is a preemption point, and a notification presented is one that runs in. -/
theorem idleBlockWaits : Obligations.IdleBlockWaits := by
  unfold Obligations.IdleBlockWaits
  intro s hs
  refine ⟨fun hu => ?_, fun n rest he ha => step_idle_due hs he ha, fun g n rest he ha => ?_, fun he hd => ?_,
    fun hr w => ⟨State.notify_presented (i := .notifyRx w) hr rfl _, State.notify_presented (i := .notifyTx w) hr rfl _,
      State.notify_presented (i := .notifyErr w) hr rfl _⟩⟩
  · rw [step_idle hs, State.preempt_undisturbed hu]
  · rw [step_idle hs, State.preempt_started he, ha, State.serve_later]
  · rw [step_idle hs, State.preempt_started he, State.serve_of_not_rxDue s hd]

/-! ### SEND -/

/-- SEND from its first preemption point on: the Engine is asked, and the frame is submitted or queued (rule R124). -/
def State.sendFrom (f : FrameRecord) (s : State) : Res State :=
  andThen s.askEngine.2.preempt fun b => if s.askEngine.1 then b.sendDirect f else b.sendQueued f

theorem exec_send_eq {s : State} {f : FrameRecord} (hp : s.issuer = .poll) (hr : s.runState = .running)
    (hf : f.length.toNat ≤ 8) : exec (.send f) s = andThen s.preempt (State.sendFrom f) := by
  change withContext _ _ (whenRunning _ (if _ then _ else _)) = _
  rw [withContext, hp, if_pos (by rfl), whenRunning, hr, if_pos (lengthValid_iff.2 hf)]
  rfl

theorem State.NotifiedTo.issuer {s t : State} (h : s.NotifiedTo t) : t.issuer = s.issuer := by
  obtain ⟨q, n, a, ps, k, rfl, -, -⟩ := h; rfl

theorem State.NotifiedTo.runState {s t : State} (h : s.NotifiedTo t) : t.runState = s.runState := by
  obtain ⟨q, n, a, ps, k, rfl, -, -⟩ := h; rfl

/-- Settles O58: SEND begins with a preemption point, which is quiet once the notification has run. -/
theorem preemptionEqualsRunningBefore : Obligations.PreemptionEqualsRunningBefore := by
  unfold Obligations.PreemptionEqualsRunningBefore
  intro s f n hp hr he hf
  have hl : exec (.send f) { s with arrivals := [{ gap := 0, event := n }] } =
      andThen (State.preempt { s with arrivals := [{ gap := 0, event := n }] }) (State.sendFrom f) :=
    exec_send_eq hp hr hf
  rw [hl, State.preempt_arrivals _ he, State.serve_due, andThen_assoc]
  refine andThen_congr fun r hn => ?_
  have ht := State.notify_notifiedTo (c := r.1) (t := r.2) hn
  have hsend : exec (.send f) { r.2 with arrivals := [] } =
      andThen (State.preempt { r.2 with arrivals := [] }) (State.sendFrom f) :=
    exec_send_eq (ht.issuer.trans hp) (ht.runState.trans hr) hf
  rw [hsend, State.preempt_quiet rfl]
  rfl

end Sys2Proof.Machine

/-! PROOF. O59: what AVAILABLE has found is kept. A queue that offers its consumer a record goes on offering it, whatever
the producer pushes, until the consumer pops it. -/
namespace Sys2Proof.Machine

/-! ### A queue that offers a record -/

/-- The consumer has seen a record queued, and the oldest one is `f` (rules R26, R61). -/
structure Queue.Offers (lag : Bool) (sel : QueueSel) (f : FrameRecord) (q : Queue) : Prop where
  inv : q.Inv lag
  seen : q.emptyFlag lag = false
  oldest : (q.contents sel).head? = some f

theorem Queue.Inv.offers {lag : Bool} {q : Queue} (sel : QueueSel) (h : q.Inv lag) (he : q.emptyFlag lag = false) :
    q.Offers lag sel (q.slotValue sel q.rptr) :=
  ⟨h, he, by rw [Queue.contents_afterPop sel h (h.queued he), List.head?_cons]⟩

/-- A push moves neither the consumer's copy nor the pops, and the occupancy does not fall (rules R61, R100). -/
theorem Queue.tryPush_emptyFlag {lag : Bool} {pick : Nat} {q : Queue} {g : FrameRecord} {b : Bool} {p : Queue}
    (he : q.emptyFlag lag = false) (hp : q.tryPush lag pick g = .next (b, p)) : p.emptyFlag lag = false := by
  have e := q.refreshProducer_eq lag pick
  rcases Queue.tryPush_cases hp with ⟨-, -, rfl⟩ | ⟨-, -, -, rfl⟩ <;> rw [e]
  · exact he
  · cases lag with
    | true => exact he
    | false => rfl

theorem Queue.Offers.tryPush {lag : Bool} {sel : QueueSel} {pick : Nat} {q : Queue} {f g : FrameRecord} {b : Bool}
    {p : Queue} (h : q.Offers lag sel f) (hg : g.wf = true) (hp : q.tryPush lag pick g = .next (b, p)) :
    p.Offers lag sel f where
  inv := h.inv.tryPush hg hp
  seen := Queue.tryPush_emptyFlag h.seen hp
  oldest := by rw [h.inv.tryPush_contents sel hp, List.head?_append, h.oldest, Option.some_or]

/-- The consumer's copy never moves backwards, so a record seen stays seen (rule R61). -/
theorem Queue.Inv.refreshConsumer_emptyFlag {lag : Bool} {q : Queue} (pick : Nat) (h : q.Inv lag)
    (he : q.emptyFlag lag = false) : (q.refreshConsumer lag pick).emptyFlag lag = false := by
  cases lag with
  | false => exact he
  | true =>
    have hge := advanceCopy_ge pick q.pushesSeen q.pushes
    have hle := h.consumerBehind rfl
    have hne : q.pushesSeen ≠ q.pops := beq_eq_false_iff_ne.1 he
    exact beq_eq_false_iff_ne.2 (by change advanceCopy pick q.pushesSeen q.pushes ≠ q.pops; omega)

theorem Queue.Offers.tryPop {lag : Bool} {sel : QueueSel} {q : Queue} {f : FrameRecord} (h : q.Offers lag sel f)
    (pick : Nat) : ∃ p, q.tryPop sel lag pick = .next (some f, p) := by
  obtain ⟨r, p, hp⟩ := Queue.tryPop_answers sel lag pick h.inv.rptrLt
  rcases Queue.tryPop_cases hp with ⟨-, he, -⟩ | ⟨rfl, -⟩
  · rw [h.inv.refreshConsumer_emptyFlag pick h.seen] at he
    cases he
  · have ho := h.oldest
    rw [h.inv.tryPop_contents hp] at ho
    exact ⟨p, hp.trans (by rw [Option.some.inj ho])⟩

/-! ### The machine that offers a received record -/

/-- RXQ offers POLL the received record `f`. -/
def State.Offers (s : State) (f : FrameRecord) : Prop := s.rxq.Offers s.params.syncLag .rx f

theorem State.Offers.notify {s t : State} {f : FrameRecord} {n : Notification} {c : Option ErrorClass} (h : s.Offers f)
    (hn : s.notify n = .next (c, t)) : t.Offers f := by
  cases n with
  | rxComplete w =>
    obtain ⟨⟨b, u⟩, hu, hn⟩ := andThen_eq_next.1 hn
    obtain ⟨p, hp, rfl⟩ := State.tryPush_cases hu
    cases hn
    have hq := Queue.Offers.tryPush h (decodeWire_wf _ _) hp
    simpa [State.Offers] using hq
  | txComplete w => cases hn; exact h
  | error w => cases hn; exact h

theorem State.Offers.serve {l : List Arrival} {s t : State} {f : FrameRecord} (h : s.Offers f)
    (ht : s.serve l = .next t) : t.Offers f := by
  induction l generalizing s with
  | nil => cases ht; exact h
  | cons a rest ih =>
    obtain ⟨gap, n⟩ := a
    cases gap with
    | zero =>
      rw [State.serve_due] at ht
      obtain ⟨⟨c, u⟩, hu, ht⟩ := andThen_eq_next.1 ht
      exact ih (h.notify hu) ht
    | succ g => cases ht; exact h

/-- GET_NEXT_FRAME returns a record that is offered, and counts it (rule R123). -/
theorem State.Offers.exec_getNextFrame {s : State} {f : FrameRecord} (h : s.Offers f) (hp : s.issuer = .poll)
    (hr : s.runState = .running) (ha : s.arrivals = []) :
    ∃ v, exec .getNextFrame s = .next v ∧ v.result = .frame f ∧ v.framesReceived = s.framesReceived + 1 ∧
      v.cause = none := by
  obtain ⟨p, hpop⟩ := Queue.Offers.tryPop h s.drawPick.1
  have hs : s.tryPop .rx = .next (some f, s.drawPick.2.setQueue .rx p) := by
    rw [State.tryPop, State.queue_rx, hpop]
    rfl
  have hquiet : (s.drawPick.2.setQueue .rx p).preempt = .next (s.drawPick.2.setQueue .rx p) :=
    State.preempt_quiet (by simp [ha])
  refine ⟨(s.drawPick.2.setQueue .rx p).countReceived.finish (.frame f) none,
    withContext_eq_next.2 ⟨by rw [hp]; rfl, whenRunning_eq_next.2 ⟨hr, ?_⟩⟩, rfl, ?_, rfl⟩
  · rw [hs, andThen_next, hquiet, andThen_next]
  · simp [State.countReceived]

theorem State.SentTo.issuer {s t : State} {e : Nat} (h : s.SentTo t e) : t.issuer = s.issuer := by
  obtain ⟨r, q, ws, n, a, o, rfl, -⟩ := h; rfl

theorem State.SentTo.runState {s t : State} {e : Nat} (h : s.SentTo t e) : t.runState = s.runState := by
  obtain ⟨r, q, ws, n, a, o, rfl, -⟩ := h; rfl

/-- AVAILABLE returns true when its last test, as RXQ's consumer, has seen a record (rule R122). -/
theorem execAvailable_true {s t : State} (h : execAvailable s = .next t) (ht : t.result = .bool true) :
    t.issuer = .poll ∧ t.runState = .running ∧ t.rxq.emptyFlag t.params.syncLag = false := by
  obtain ⟨hp, h⟩ := withContext_eq_next.1 h
  obtain ⟨hr, h⟩ := whenRunning_eq_next.1 h
  obtain ⟨⟨b, u⟩, hu, h⟩ := andThen_eq_next.1 h
  obtain ⟨w, hw, h⟩ := andThen_eq_next.1 h
  have hs := (State.drain_sentTo hu).trans (State.preempt_notifiedTo hw).sentTo
  have hissuer : w.issuer = .poll := hs.issuer.trans (eq_of_beq hp)
  have htest := State.testEmpty_poll .rx hissuer
  cases h
  have hseen : (w.testEmpty .rx).1 = false := by simpa using ht
  rw [htest] at hseen ⊢
  exact ⟨by simpa using hissuer, by simpa using hs.runState.trans hr, by simpa using hseen⟩

theorem State.NotifiedTo.framesReceived {s t : State} (h : s.NotifiedTo t) : t.framesReceived = s.framesReceived := by
  obtain ⟨q, n, a, ps, k, rfl, -, -⟩ := h; rfl

/-- Settles O59: the record AVAILABLE has seen is offered until POLL's next pop. -/
theorem trueFromAvailableStaysGood : Obligations.TrueFromAvailableStaysGood := by
  unfold Obligations.TrueFromAvailableStaysGood
  intro s t u ns hi h ht hu
  obtain ⟨hp, hr, hseen⟩ := execAvailable_true h ht
  have hti : t.Inv := (State.Inv.keptBySending.available hi).of_next h
  have hoffer : t.Offers _ := hti.rx.offers .rx hseen
  have hoffered : u.Offers _ := hoffer.serve hu
  have hn := State.serve_notifiedTo hu
  obtain ⟨v, hv, hresult, hcount, hcause⟩ :=
    State.Offers.exec_getNextFrame (s := { u with arrivals := [] }) hoffered (hn.issuer.trans hp) (hn.runState.trans hr) rfl
  exact ⟨_, _, v, Queue.contents_afterPop .rx hti.rx (hti.rx.queued hseen), hv, hresult,
    hcount.trans (congrArg (· + 1) hn.framesReceived), hcause⟩

end Sys2Proof.Machine

/-! PROOF. O7, O9, O10, O11: the decoder and the encoder agree. A field read from a word of placed fields is the field placed
there, so each operand and each kind of word has its own round trip; the operations are then one case split. -/
namespace Sys2Proof

/-! ### Placed fields -/

section
variable {n lo k len w : Nat} {v : BitVec w}

theorem getLsbD_place (i : Nat) :
    (place n lo v).getLsbD i = (decide (i < n) && decide (lo ≤ i) && v.getLsbD (i - lo)) := by
  have hlo : decide (lo ≤ i) = !decide (i < lo) := by rw [← decide_not, decide_eq_decide, Nat.not_lt]
  rw [place, BitVec.getLsbD_shiftLeft, BitVec.getLsbD_setWidth, hlo]
  by_cases hn : i < n
  · have hsub : i - lo < n := by omega
    simp [hn, hsub]
  · simp [hn]

/-- A field is read back from where it was placed. -/
@[simp] theorem extractLsb'_place_same (h : lo + w ≤ n) : (place n lo v).extractLsb' lo w = v := by
  apply BitVec.eq_of_getLsbD_eq
  intro i hi
  have hn : lo + i < n := by omega
  rw [BitVec.getLsbD_extractLsb', getLsbD_place]
  simp [hi, hn]

/-- A field leaves the bits below it and above it 0. -/
@[simp] theorem extractLsb'_place_apart (h : k + len ≤ lo ∨ lo + w ≤ k) :
    (place n lo v).extractLsb' k len = 0#len := by
  apply BitVec.eq_of_getLsbD_eq
  intro i hi
  rw [BitVec.getLsbD_extractLsb', getLsbD_place]
  rcases h with h | h
  · have hlo : ¬ lo ≤ k + i := by omega
    simp [hlo]
  · have hv : v.getLsbD (k + i - lo) = false := BitVec.getLsbD_of_ge _ _ (by omega)
    simp [hv]

@[simp] theorem extractLsb'_placeBytes_below {b : Nat → Byte} (h : k + len ≤ lo) :
    (placeBytes n lo b).extractLsb' k len = 0#len := by
  simp (disch := omega) [placeBytes, BitVec.extractLsb'_or]

theorem lt_eight_iff {i : Nat} : i < 8 ↔ i = 0 ∨ i = 1 ∨ i = 2 ∨ i = 3 ∨ i = 4 ∨ i = 5 ∨ i = 6 ∨ i = 7 := by omega

/-- Payload byte `i` stands apart from every other one. -/
@[simp] theorem byteAt_placeBytes {b : Nat → Byte} {i : Nat} (hn : lo + 64 ≤ n) (hi : i < 8) :
    byteAt (placeBytes n lo b) lo i = b i := by
  rcases lt_eight_iff.1 hi with rfl | rfl | rfl | rfl | rfl | rfl | rfl | rfl <;>
    simp (disch := omega) [placeBytes, byteAt, BitVec.extractLsb'_or]

@[simp] theorem byteAt_place_below {i : Nat} (h : k + w ≤ lo) : byteAt (place n k v) lo i = 0#8 :=
  extractLsb'_place_apart (.inr (by omega))

@[simp] theorem byteAt_or (x y : BitVec n) (i : Nat) : byteAt (x ||| y) lo i = byteAt x lo i ||| byteAt y lo i :=
  BitVec.extractLsb'_or

end

/-! ### Operands -/

section
variable (tail : Nat → Byte) (f : FrameRecord) (w : WireMessage)

theorem packFrameWith_id : (packFrameWith tail f).extractLsb' 0 32 = f.id := by
  simp [packFrameWith, BitVec.extractLsb'_or]

theorem packFrameWith_length : (packFrameWith tail f).extractLsb' 34 4 = f.length := by
  simp [packFrameWith, BitVec.extractLsb'_or]

theorem packFrameWith_isExtended : (packFrameWith tail f).getLsbD 32 = f.isExtended := by
  simp only [packFrameWith, placeBytes, BitVec.getLsbD_or, getLsbD_place]
  simp

theorem packFrameWith_isRemoteRequest : (packFrameWith tail f).getLsbD 33 = f.isRemoteRequest := by
  simp only [packFrameWith, placeBytes, BitVec.getLsbD_or, getLsbD_place]
  simp

theorem byteAt_packFrameWith {i : Nat} (hi : i < 8) : byteAt (packFrameWith tail f) 38 i = f.data.getD i (tail i) := by
  simp [packFrameWith, hi]

/-- The payload bytes below the record's length are its data (rules R20, R79). -/
theorem bytesAt_packFrameWith {f : FrameRecord} (hf : f.wf = true) :
    (bytesAt (packFrameWith tail f) 38).take (Len.bytes f.length) = f.data := by
  have hlen : f.data.length = Len.bytes f.length := beq_iff_eq.1 hf
  have h8 : Len.bytes f.length ≤ 8 := Nat.min_le_right _ _
  have hbytes : bytesAt (packFrameWith tail f) 38 = (List.range 8).map (byteAt (packFrameWith tail f) 38) := rfl
  apply List.ext_getElem (by simp [hbytes]; omega)
  intro i _ hi
  simp [hbytes, byteAt_packFrameWith tail f (by omega : i < 8), hi]

/-- A Frame Record is read back whole, whatever stands in the don't-care payload bits (rule R79). -/
theorem unpackFrame_packFrameWith {f : FrameRecord} (hf : f.wf = true) : unpackFrame (packFrameWith tail f) = f := by
  rw [unpackFrame, packFrameWith_id, packFrameWith_length, packFrameWith_isExtended, packFrameWith_isRemoteRequest,
    bytesAt_packFrameWith tail hf]

theorem packWire_id : (packWire w).extractLsb' 0 32 = w.id := by
  simp [packWire, BitVec.extractLsb'_or]

theorem packWire_dlc : (packWire w).extractLsb' 32 4 = w.dlc := by
  simp [packWire, BitVec.extractLsb'_or]

theorem byteAt_packWire {i : Nat} (hi : i < 8) : byteAt (packWire w) 36 i = w.data[i] := by
  simp [packWire, hi]

theorem unpackWire_data_getElem (v : BitVec 100) {i : Nat} (hi : i < 8) : (unpackWire v).data[i] = byteAt v 36 i := by
  rcases lt_eight_iff.1 hi with rfl | rfl | rfl | rfl | rfl | rfl | rfl | rfl <;> rfl

/-- A Wire Message is read back whole (rule R80). -/
theorem unpackWire_packWire : unpackWire (packWire w) = w := by
  have hdata : (unpackWire (packWire w)).data = w.data :=
    Vector.ext fun i hi => (unpackWire_data_getElem _ hi).trans (byteAt_packWire w hi)
  calc unpackWire (packWire w)
      = ⟨(packWire w).extractLsb' 0 32, (packWire w).extractLsb' 32 4, (unpackWire (packWire w)).data⟩ := rfl
    _ = w := by rw [packWire_id, packWire_dlc, hdata]

theorem unpackWireOperand_packWireOperand : unpackWireOperand (packWireOperand w) = w := by
  rw [unpackWireOperand, packWireOperand, BitVec.extractLsb'_setWidth_of_le (by omega), BitVec.extractLsb'_eq_self,
    unpackWire_packWire]

end

/-! ### Command words -/

/-- A command word is its code and its queue bit (rule R76). -/
theorem commandWord_fields (cmd : BitVec 6) : commandWord (cmd.extractLsb' 1 5).toNat (cmd.getLsbD 0) = cmd := by
  ext i hi
  rw [commandWord, BitVec.ofNat_toNat, BitVec.getElem_append]
  cases i with
  | zero => simp
  | succ i => simp [Nat.add_comm 1 i, BitVec.getLsbD_eq_getElem hi]

theorem decode_commandWord {op : Nat} (hop : op < 32) (q : Bool) (v : BitVec 102) :
    decode (.command (commandWord op q) v) = decodeOp op q v := by
  have hcode : (commandWord op q).extractLsb' 1 5 = BitVec.ofNat 5 op := BitVec.extractLsb'_append_eq_left
  have hq : (commandWord op q).getLsbD 0 = q := by
    rw [commandWord, BitVec.getLsbD_append]
    simp
  rw [decode, hcode, hq, BitVec.toNat_ofNat, Nat.mod_eq_of_lt hop]

/-- `cmd[5:1]` and `cmd[0]` as numbers (rule R76). -/
theorem decode_command_eq (cmd : BitVec 6) (v : BitVec 102) :
    decode (.command cmd v) = decodeOp (cmd.toNat / 2) (decide (cmd.toNat % 2 = 1)) v := by
  have hcode : (cmd.extractLsb' 1 5).toNat = cmd.toNat / 2 := by
    rw [BitVec.extractLsb'_toNat, Nat.shiftRight_eq_div_pow]; omega
  rw [decode, hcode, BitVec.getLsbD, Nat.testBit_zero]

theorem queueOfBit_bitOfQueue (q : QueueSel) : queueOfBit (bitOfQueue q) = q := by cases q <;> rfl

theorem bitOfQueue_queueOfBit (b : Bool) : bitOfQueue (queueOfBit b) = b := by cases b <;> rfl

/-- The operation a command word decodes to is encoded with the same code and queue bit (rule R76). -/
theorem encode_decodeOp {op : Nat} {q : Bool} {v : BitVec 102} {i : Instr} (h : decodeOp op q v = .ok i) :
    ∃ u, encode i = .command (commandWord op q) u := by
  unfold decodeOp at h
  split at h
  case h_3 | h_4 | h_5 | h_6 | h_7 | h_8 | h_9 => cases h; exact ⟨_, by rw [encode, bitOfQueue_queueOfBit]⟩
  case h_22 => cases h
  all_goals obtain ⟨rfl, rfl⟩ := withoutQueue_eq_ok.1 h; exact ⟨_, rfl⟩

/-! ### Reserved command words -/

theorem decodeOp_reserved {op : Nat} (h : 21 ≤ op) (q : Bool) (v : BitVec 102) :
    decodeOp op q v = .error (.reservedCode op) := by
  obtain ⟨k, rfl⟩ := Nat.exists_eq_add_of_le' h
  rfl

theorem decodeOp_queue {op : Nat} (h : 2 ≤ op ∧ op ≤ 8) (q : Bool) (v : BitVec 102) :
    ∃ i, decodeOp op q v = .ok i := by
  unfold decodeOp
  split
  case h_3 | h_4 | h_5 | h_6 | h_7 | h_8 | h_9 => exact ⟨_, rfl⟩
  case h_22 => simp only [imp_false] at *; omega
  all_goals omega

theorem decodeOp_withoutQueue {op : Nat} (h20 : op ≤ 20) (h : op < 2 ∨ 8 < op) (q : Bool) (v : BitVec 102) :
    ∃ i, decodeOp op q v = withoutQueue op q i := by
  unfold decodeOp
  split
  case h_3 | h_4 | h_5 | h_6 | h_7 | h_8 | h_9 => omega
  case h_22 => simp only [imp_false] at *; omega
  all_goals exact ⟨_, rfl⟩

/-! ### Wire id words -/

/-- The class of a wire id word with flag bits `ext`, `rtr` and low bits `a` (rule R73). -/
def wireIdInstr (ext rtr : Bool) (a : BitVec 30) : Instr :=
  match ext, rtr with
  | false, false => .wireidStdData a
  | false, true => .wireidStdRemote a
  | true, false => .wireidExtData a
  | true, true => .wireidExtRemote a

theorem decodeWireId_eq (id : Word) :
    decodeWireId id = wireIdInstr (id.getLsbD 31) (id.getLsbD 30) (id.extractLsb' 0 30) := rfl

theorem encode_wireIdInstr (ext rtr : Bool) (a : BitVec 30) :
    encode (wireIdInstr ext rtr a) = .wireId (wireIdWord ext rtr a) := by
  cases ext <;> cases rtr <;> rfl

theorem wireIdWord_low (ext rtr : Bool) (a : BitVec 30) : (wireIdWord ext rtr a).extractLsb' 0 30 = a := by
  simp [wireIdWord, BitVec.extractLsb'_or]

theorem wireIdWord_ext (ext rtr : Bool) (a : BitVec 30) : (wireIdWord ext rtr a).getLsbD 31 = ext := by
  simp only [wireIdWord, BitVec.getLsbD_or, getLsbD_place]
  simp

theorem wireIdWord_rtr (ext rtr : Bool) (a : BitVec 30) : (wireIdWord ext rtr a).getLsbD 30 = rtr := by
  simp only [wireIdWord, BitVec.getLsbD_or, getLsbD_place]
  simp

theorem decode_encode_wireIdInstr (ext rtr : Bool) (a : BitVec 30) :
    decode (encode (wireIdInstr ext rtr a)) = .ok (wireIdInstr ext rtr a) := by
  rw [encode_wireIdInstr, decode, decodeWireId_eq, wireIdWord_ext, wireIdWord_rtr, wireIdWord_low]

/-- A wire id word is its two flag bits above its 30 low bits (rule R73). -/
theorem wireIdWord_fields (id : Word) : wireIdWord (id.getLsbD 31) (id.getLsbD 30) (id.extractLsb' 0 30) = id := by
  apply BitVec.eq_of_getLsbD_eq
  intro i hi
  simp only [wireIdWord, BitVec.getLsbD_or, getLsbD_place]
  have h : i < 30 ∨ i = 30 ∨ i = 31 := by omega
  rcases h with h | rfl | rfl
  · have h30 : ¬ 30 ≤ i := by omega
    have h31 : ¬ 31 ≤ i := by omega
    simp [h, hi, h30, h31]
  · simp
  · simp

theorem encode_decodeWireId (id : Word) : encode (decodeWireId id) = .wireId id := by
  rw [decodeWireId_eq, encode_wireIdInstr, wireIdWord_fields]

/-! ### The round trips -/

/-- A well-formed instruction is read back from its word. The cases go by what the word carries: a record, a record and a
queue, a message, a queue, nothing, or the low bits of a wire id. -/
theorem decode_encode {i : Instr} (hi : i.wf = true) : decode (encode i) = .ok i := by
  have hframe {f : FrameRecord} (hf : f.wf = true) : unpackFrame (packFrame f) = f := unpackFrame_packFrameWith _ hf
  cases i with
  | encode f | send f => simp [encode, decode_commandWord, decodeOp, withoutQueue, hframe hi]
  | tryPush q f => simp [encode, decode_commandWord, decodeOp, queueOfBit_bitOfQueue, hframe hi]
  | decode w | notifyRx w | notifyTx w | notifyErr w =>
    simp [encode, decode_commandWord, decodeOp, withoutQueue, unpackWireOperand_packWireOperand]
  | tryPop q | isEmpty q | isFull q | clear q | rdPushed q | rdDropped q =>
    simp [encode, decode_commandWord, decodeOp, queueOfBit_bitOfQueue]
  | beginRun | available | getNextFrame | reset | stop | receivedCount | sentCount | sendErrorCount => rfl
  | wireidStdData a => exact decode_encode_wireIdInstr false false a
  | wireidStdRemote a => exact decode_encode_wireIdInstr false true a
  | wireidExtData a => exact decode_encode_wireIdInstr true false a
  | wireidExtRemote a => exact decode_encode_wireIdInstr true true a

/-- Settles O7: each kind of operand is read back from the bits it was placed in. -/
theorem decodeEncodeIsIdentity : Obligations.DecodeEncodeIsIdentity := by
  unfold Obligations.DecodeEncodeIsIdentity
  exact fun _ hi => decode_encode hi

/-- Settles O9: the code, the queue bit and the fields of a wire id word are all that the two kinds of word hold. -/
theorem oneCommandWordPerOperation : Obligations.OneCommandWordPerOperation := by
  unfold Obligations.OneCommandWordPerOperation
  constructor
  · intro cmd v i h
    have hu := encode_decodeOp h
    rwa [commandWord_fields] at hu
  · intro id i h
    cases h
    exact encode_decodeWireId id

/-- Settles O11: each word evaluates. -/
theorem writtenOutWordsDecode : Obligations.WrittenOutWordsDecode := by
  unfold Obligations.WrittenOutWordsDecode
  exact ⟨rfl, rfl, rfl, rfl, rfl, rfl⟩

end Sys2Proof

/-! PROOF. O5, O10, O16: what a step makes of a presented word. -/
namespace Sys2Proof.Machine

theorem step_of_decode_ok {s : State} {r : Request} {rest : List Request} {i : Instr} (hs : s.requests = r :: rest)
    (h : decode r.word = .ok i) : step s = exec i (s.take r rest) := by
  rw [step, hs]
  dsimp only
  rw [h]

theorem step_of_decode_error {s : State} {r : Request} {rest : List Request} {e : DecodeError}
    (hs : s.requests = r :: rest) (h : decode r.word = .error e) : step s = .refused (.reserved e) := by
  rw [step, hs]
  dsimp only
  rw [h]

/-- Settles O5, by the two answers of the decoder. -/
theorem stepRunsTheDecodedOperation : Obligations.StepRunsTheDecodedOperation := by
  unfold Obligations.StepRunsTheDecodedOperation
  exact fun s r rest hs => ⟨fun i h => step_of_decode_ok hs h, fun e h => step_of_decode_error hs h⟩

/-- Settles O10: the ranges of the code decide, and the queue bit where the operation takes no queue. -/
theorem reservedCommandWordsAreRefused : Obligations.ReservedCommandWordsAreRefused := by
  unfold Obligations.ReservedCommandWordsAreRefused
  intro cmd v c rest s hs
  have hd := decode_command_eq cmd v
  refine ⟨fun h => ?_, fun h20 hq h => ?_, fun h20 h => ?_⟩
  · exact step_of_decode_error hs (hd.trans (decodeOp_reserved h _ v))
  · obtain ⟨i, hi⟩ := decodeOp_withoutQueue h20 h true v
    rw [decide_eq_true hq] at hd
    exact step_of_decode_error hs (hd.trans hi)
  · rw [hd]
    by_cases hqueue : 2 ≤ cmd.toNat / 2 ∧ cmd.toNat / 2 ≤ 8
    · exact decodeOp_queue hqueue _ v
    · have heven : cmd.toNat % 2 = 0 := h.resolve_right hqueue
      obtain ⟨i, hi⟩ := decodeOp_withoutQueue h20 (by omega) false v
      exact ⟨i, by simp [heven, hi, withoutQueue]⟩

/-- Either mask clears the two flag bits (rule R71). -/
theorem classifyWireId_eq (mask : Config.IdMask) (ext rtr : Bool) (a : BitVec 30) :
    classifyWireId mask ext rtr a = .wireId ext rtr (a.setWidth 32 &&& mask.word) := by
  have hflags : place 32 31 (BitVec.ofBool ext) &&& mask.word = 0#32 ∧
      place 32 30 (BitVec.ofBool rtr) &&& mask.word = 0#32 := by
    cases mask <;> cases ext <;> cases rtr <;> decide
  have hlow : place 32 0 a = a.setWidth 32 := BitVec.shiftLeft_zero _
  simp [classifyWireId, wireIdWord, BitVec.and_or_distrib_right, hflags, hlow]

/-- Either context may present a wire id word (rule R94; log entry 12). -/
theorem permitted_wireIdInstr (c : Context) (ext rtr : Bool) (a : BitVec 30) :
    permitted c (wireIdInstr ext rtr a) = true := by
  cases c <;> cases ext <;> cases rtr <;> rfl

theorem exec_wireIdInstr (ext rtr : Bool) (a : BitVec 30) (s : State) :
    exec (wireIdInstr ext rtr a) s = .next (s.finish (.wireId ext rtr (a.setWidth 32 &&& s.params.idMask.word)) none) := by
  have hexec : exec (wireIdInstr ext rtr a) s =
      withContext (wireIdInstr ext rtr a) s (.next (s.finish (classifyWireId s.params.idMask ext rtr a) none)) := by
    cases ext <;> cases rtr <;> rfl
  rw [hexec, ← classifyWireId_eq]
  exact withContext_eq_next.2 ⟨permitted_wireIdInstr .., rfl⟩

/-- Settles O16: the four classes are the four values of the two flag bits. -/
theorem wireIdClassesGiveFlagsAndId : Obligations.WireIdClassesGiveFlagsAndId := by
  unfold Obligations.WireIdClassesGiveFlagsAndId
  exact fun a s => ⟨exec_wireIdInstr false false a s, exec_wireIdInstr false true a s, exec_wireIdInstr true false a s,
    exec_wireIdInstr true true a s⟩

end Sys2Proof.Machine

/-! PROOF. O12, O13, O14, O15: the codec. On the id both round trips are one mask: DECODE after ENCODE keeps the bits of
ID_MASK, ENCODE after DECODE keeps these and the two flag bits. On the data both cut the eight bytes at the length. -/
namespace Sys2Proof.Machine

/-! ### Masks -/

/-- A mask keeps a word when the complement's bits are clear in it. -/
theorem and_eq_self_iff_and_compl_eq_zero {n : Nat} {m c : BitVec n} (x : BitVec n) (hapart : m &&& c = 0#n)
    (hcover : m ||| c = BitVec.allOnes n) : x &&& m = x ↔ x &&& c = 0#n := by
  constructor
  · intro h
    rw [← h, BitVec.and_assoc, hapart, BitVec.and_zero]
  · intro h
    calc x &&& m = x &&& m ||| x &&& c := by rw [h, BitVec.or_zero]
      _ = x := by rw [← BitVec.and_or_distrib_left, hcover, BitVec.and_allOnes]

theorem and_twoPow_eq_zero_iff {n i : Nat} (x : BitVec n) (hi : i < n) :
    x &&& BitVec.twoPow n i = 0#n ↔ x.getLsbD i = false := by
  have hne : BitVec.twoPow n i ≠ 0#n := fun h => by simpa [hi] using congrArg (·.getLsbD i) h
  rw [BitVec.and_twoPow]
  cases x.getLsbD i <;> simp [hne]

/-- Either mask keeps the 29 bits of an extended id (rules R9, R71). -/
theorem and_idMask_of_lt {x : Word} (mask : Config.IdMask) (h : x.toNat < 2 ^ 29) : x &&& mask.word = x := by
  apply BitVec.eq_of_toNat_eq
  rw [BitVec.toNat_and]
  cases mask with
  | keepBit29 => exact Nat.and_two_pow_sub_one_of_lt_two_pow (n := 30) (by omega)
  | dropBit29 => exact Nat.and_two_pow_sub_one_of_lt_two_pow h

/-- Either mask clears the two flag bits (rule R71). -/
theorem idMask_getLsbD_flag (mask : Config.IdMask) : mask.word.getLsbD 30 = false ∧ mask.word.getLsbD 31 = false := by
  cases mask <;> decide

/-! ### The id -/

/-- What ENCODE ORs in, either mask clears again (rules R71, R82). -/
theorem assembleId_and_idMask (mask : Config.IdMask) (f : FrameRecord) :
    assembleId f &&& mask.word = f.id &&& mask.word := by
  have hflags : Config.flagRtr &&& mask.word = 0#32 ∧ Config.flagEff &&& mask.word = 0#32 := by
    cases mask <;> decide
  rw [assembleId, BitVec.and_or_distrib_right, BitVec.and_or_distrib_right]
  cases f.isRemoteRequest <;> cases f.isExtended <;> simp [hflags]

theorem assembleId_getLsbD_rtr (f : FrameRecord) :
    (assembleId f).getLsbD 30 = (f.id.getLsbD 30 || f.isRemoteRequest) := by
  cases hr : f.isRemoteRequest <;> cases he : f.isExtended <;> simp [assembleId, hr, he, Config.flagRtr, Config.flagEff]

theorem assembleId_getLsbD_eff (f : FrameRecord) :
    (assembleId f).getLsbD 31 = (f.id.getLsbD 31 || f.isExtended) := by
  cases hr : f.isRemoteRequest <;> cases he : f.isExtended <;> simp [assembleId, hr, he, Config.flagRtr, Config.flagEff]

/-- ENCODE after DECODE keeps the bits of the mask and the two flags (rules R71, R82, R91). -/
theorem assembleId_decodeWire (mask : Config.IdMask) (w : WireMessage) :
    assembleId (decodeWire mask w) = w.id &&& (mask.word ||| Config.flagRtr ||| Config.flagEff) := by
  have hrtr : (if w.id.getLsbD 30 then Config.flagRtr else 0) = w.id &&& Config.flagRtr :=
    (BitVec.and_twoPow w.id 30).symm
  have heff : (if w.id.getLsbD 31 then Config.flagEff else 0) = w.id &&& Config.flagEff :=
    (BitVec.and_twoPow w.id 31).symm
  rw [BitVec.and_or_distrib_left, BitVec.and_or_distrib_left, ← hrtr, ← heff]
  rfl

theorem assembleId_decodeWire_keepBit29 (w : WireMessage) : assembleId (decodeWire .keepBit29 w) = w.id :=
  (assembleId_decodeWire .keepBit29 w).trans BitVec.and_allOnes

theorem assembleId_decodeWire_dropBit29 (w : WireMessage) :
    assembleId (decodeWire .dropBit29 w) = w.id ↔ w.id.getLsbD 29 = false := by
  rw [assembleId_decodeWire, ← and_twoPow_eq_zero_iff w.id (by omega : 29 < 32)]
  exact and_eq_self_iff_and_compl_eq_zero w.id (by decide) (by decide)

/-! ### The length and the data -/

theorem clampLen_of_le {n : Len} (h : n.toNat ≤ 8) : clampLen n = n := if_pos h

theorem clampLen_of_gt {n : Len} (h : 8 < n.toNat) : clampLen n = 8 := if_neg (Nat.not_le_of_lt h)

theorem clampLen_toNat (n : Len) : (clampLen n).toNat = min n.toNat 8 := by
  rcases Nat.lt_or_ge 8 n.toNat with h | h
  · rw [clampLen_of_gt h, Nat.min_eq_right (Nat.le_of_lt h)]
    rfl
  · rw [clampLen_of_le h, Nat.min_eq_left h]

theorem encodedByte_of_lt {tail : Nat → Byte} {f : FrameRecord} {i : Nat} (hi : i < f.data.length)
    (hlen : i < f.length.toNat) : encodedByte tail f i = f.data[i] := by
  simp [encodedByte, List.getElem?_take_of_lt hlen, hi]

/-- The bytes of the message that carry meaning are the record's data (rules R20, R21, R90). -/
theorem payload_encodeFrame (tail : Nat → Byte) {f : FrameRecord} (hf : f.wf = true) (hlen : f.length.toNat ≤ 8) :
    (encodeFrame tail f).payload = f.data := by
  have hdata : f.data.length = Len.bytes f.length := beq_iff_eq.1 hf
  have hbytes : Len.bytes f.length = f.length.toNat := Nat.min_eq_left hlen
  have hpayload : (encodeFrame tail f).payload =
      ((List.range 8).map (encodedByte tail f)).take (Len.bytes f.length) := rfl
  apply List.ext_getElem (by simp [hpayload]; omega)
  intro i _ hi
  simp [hpayload, encodedByte_of_lt hi (by omega)]

/-! ### The operations -/

/-- What ENCODE makes of a length-valid record (rule R90). -/
theorem encodeFrame_encodedAs (tail : Nat → Byte) {f : FrameRecord} (hf : f.wf = true) (hlen : f.length.toNat ≤ 8) :
    EncodedAs f (encodeFrame tail f) :=
  ⟨rfl, rfl, payload_encodeFrame tail hf hlen⟩

/-- Both contexts may use the codec (rule R165). -/
theorem permitted_encode (c : Context) (f : FrameRecord) : permitted c (.encode f) = true := by cases c <;> rfl

theorem permitted_decode (c : Context) (w : WireMessage) : permitted c (.decode w) = true := by cases c <;> rfl

theorem exec_encode_eq (f : FrameRecord) (s : State) :
    exec (.encode f) s = andThen (s.encodeOp f) fun e => .next (e.2.finish (.wire e.1) none) := by
  rw [exec, execEncode, withContext, if_pos (permitted_encode s.issuer f)]

theorem exec_encode_of_le {f : FrameRecord} (s : State) (h : f.length.toNat ≤ 8) :
    exec (.encode f) s = .next { s with
      result := .wire (s.offered f), cause := none, oracle := { s.oracle with tails := s.oracle.tails + 1 } } := by
  rw [exec_encode_eq, State.encodeOp, if_pos (lengthValid_iff.2 h)]
  rfl

theorem exec_encode_of_gt {f : FrameRecord} (s : State) (h : 8 < f.length.toNat) :
    exec (.encode f) s = .refused (.misuse .encodeLength) := by
  rw [exec_encode_eq, State.encodeOp, if_neg (mt lengthValid_iff.1 (Nat.not_le_of_lt h))]
  rfl

theorem exec_decode_eq (w : WireMessage) (s : State) :
    exec (.decode w) s = .next (s.finish (.frame (decodeWire s.params.idMask w)) none) := by
  rw [exec, execDecode, withContext, if_pos (permitted_decode s.issuer w)]

/-- Settles O12: the length decides, and the message is the one `encodeFrame_encodedAs` speaks of. -/
theorem encodeGivesTheWireMessage : Obligations.EncodeGivesTheWireMessage := by
  unfold Obligations.EncodeGivesTheWireMessage
  exact fun f s hf =>
    ⟨fun h => ⟨s.offered f, encodeFrame_encodedAs _ hf h, exec_encode_of_le s h⟩, fun h => exec_encode_of_gt s h⟩

/-- Settles O13: the record is `decodeWire`'s, field by field. -/
theorem decodeGivesTheFrameRecord : Obligations.DecodeGivesTheFrameRecord := by
  unfold Obligations.DecodeGivesTheFrameRecord
  intro w s
  refine ⟨decodeWire s.params.idMask w, exec_decode_eq w s, clampLen_toNat w.dlc, rfl, rfl, rfl, rfl, fun hmask => ?_⟩
  rw [hmask]
  rfl

/-! ### The round trips -/

/-- DECODE gives an encoded record back exactly when the mask keeps its id: a bit the mask clears, the two flag bits
among them, has to be clear already. -/
theorem decodeWire_encodeFrame_eq_iff (mask : Config.IdMask) (tail : Nat → Byte) {f : FrameRecord} (hf : f.wf = true)
    (hlen : f.length.toNat ≤ 8) : decodeWire mask (encodeFrame tail f) = f ↔ f.id &&& mask.word = f.id := by
  have hid : (decodeWire mask (encodeFrame tail f)).id = f.id &&& mask.word := assembleId_and_idMask mask f
  constructor
  · intro h
    rw [← hid, h]
  · intro h
    obtain ⟨h30, h31⟩ := idMask_getLsbD_flag mask
    have hrtr : (assembleId f).getLsbD 30 = f.isRemoteRequest := by
      rw [assembleId_getLsbD_rtr, ← h, BitVec.getLsbD_and, h30, Bool.and_false, Bool.false_or]
    have heff : (assembleId f).getLsbD 31 = f.isExtended := by
      rw [assembleId_getLsbD_eff, ← h, BitVec.getLsbD_and, h31, Bool.and_false, Bool.false_or]
    calc decodeWire mask (encodeFrame tail f)
        = ⟨assembleId f &&& mask.word, clampLen f.length, (assembleId f).getLsbD 30, (assembleId f).getLsbD 31,
            (encodeFrame tail f).payload⟩ := rfl
      _ = f := by
        rw [assembleId_and_idMask, h, clampLen_of_le hlen, hrtr, heff, payload_encodeFrame tail hf hlen]

/-- A valid record is well formed, of length at most 8, and its id has at most 29 bits (rule R9). -/
theorem valid_bounds {f : FrameRecord} (h : f.valid = true) :
    f.wf = true ∧ f.length.toNat ≤ 8 ∧ f.id.toNat < 2 ^ 29 := by
  rw [FrameRecord.valid, Bool.and_eq_true, Bool.and_eq_true] at h
  obtain ⟨⟨hlen, hf⟩, hid⟩ := h
  refine ⟨hf, lengthValid_iff.1 hlen, ?_⟩
  split at hid
  · exact of_decide_eq_true hid
  · have h11 := of_decide_eq_true hid
    omega

/-- Settles O14: a valid id fits under either mask, and the default mask is the complement of the two flag bits. -/
theorem codecRoundTrip : Obligations.CodecRoundTrip := by
  unfold Obligations.CodecRoundTrip
  constructor
  · intro tail mask f hv
    obtain ⟨hf, hlen, hid⟩ := valid_bounds hv
    exact (decodeWire_encodeFrame_eq_iff mask tail hf hlen).2 (and_idMask_of_lt mask hid)
  · intro tail f hf hlen
    rw [decodeWire_encodeFrame_eq_iff .keepBit29 tail hf hlen]
    exact and_eq_self_iff_and_compl_eq_zero f.id (by decide) (by decide)

/-- ENCODE gives a decoded message of legal dlc back, up to equivalence, exactly when its id comes back (rule R10). -/
theorem encodeFrame_decodeWire_equiv_iff (mask : Config.IdMask) (tail : Nat → Byte) {w : WireMessage}
    (h : w.dlc.toNat ≤ 8) :
    (encodeFrame tail (decodeWire mask w)).equiv w = true ↔ assembleId (decodeWire mask w) = w.id := by
  have hid : (encodeFrame tail (decodeWire mask w)).id = assembleId (decodeWire mask w) := rfl
  have hdlc : (encodeFrame tail (decodeWire mask w)).dlc = w.dlc := clampLen_of_le h
  have hlen : (decodeWire mask w).length.toNat ≤ 8 :=
    Nat.le_trans (Nat.le_of_eq (clampLen_toNat w.dlc)) (Nat.min_le_right _ _)
  have hpayload : (encodeFrame tail (decodeWire mask w)).payload = w.payload :=
    payload_encodeFrame tail (decodeWire_wf mask w) hlen
  simp [WireMessage.equiv, hid, hdlc, hpayload]

/-- Settles O15: up to dlc 8 only the id can differ, and only in bit 29; above it the length is clamped. -/
theorem codecReverseRoundTrip : Obligations.CodecReverseRoundTrip := by
  unfold Obligations.CodecReverseRoundTrip
  exact fun tail w =>
    ⟨fun h => (encodeFrame_decodeWire_equiv_iff .keepBit29 tail h).2 (assembleId_decodeWire_keepBit29 w),
      fun h => clampLen_of_gt h,
      fun h => (encodeFrame_decodeWire_equiv_iff .dropBit29 tail h).trans (assembleId_decodeWire_dropBit29 w)⟩

end Sys2Proof.Machine

/-! PROOF. O27, O28, O29, O30: a queue over several operations. Without SYNC_LAG a push into room and a pop of a record are
the two updates of the ring, which the queued records follow. -/
namespace Sys2Proof.Machine

/-! ### Successive pushes -/

/-- `p` is `q` after it has taken the records `fs`, in this order. -/
structure Queue.Took (sel : QueueSel) (q : Queue) (fs : List FrameRecord) (p : Queue) : Prop where
  inv : p.Inv false
  cap : p.cap = q.cap
  dropped : p.dropped = q.dropped
  contents : p.contents sel = q.contents sel ++ fs

@[simp] theorem Queue.contents_length (sel : QueueSel) (q : Queue) : (q.contents sel).length = q.count := by
  simp [Queue.contents]

theorem Queue.contents_eq_nil {q : Queue} (sel : QueueSel) (h : q.count = 0) : q.contents sel = [] :=
  List.length_eq_zero_iff.1 ((q.contents_length sel).trans h)

theorem Queue.Took.count {sel : QueueSel} {q p : Queue} {fs : List FrameRecord} (h : q.Took sel fs p) :
    p.count = q.count + fs.length := by
  rw [← p.contents_length sel, h.contents, List.length_append, q.contents_length]

theorem Queue.Inv.took_nil {q : Queue} (sel : QueueSel) (h : q.Inv false) : q.Took sel [] q :=
  ⟨h, rfl, rfl, (List.append_nil _).symm⟩

theorem Queue.Took.cons {sel : QueueSel} {q p r : Queue} {f : FrameRecord} {fs : List FrameRecord}
    (h : q.Took sel [f] p) (h' : p.Took sel fs r) : q.Took sel (f :: fs) r where
  inv := h'.inv
  cap := h'.cap.trans h.cap
  dropped := h'.dropped.trans h.dropped
  contents := by rw [h'.contents, h.contents, List.append_assoc, List.singleton_append]

/-- A push into room takes the record (rule R100). -/
theorem Queue.Inv.tryPush_took {q : Queue} {f : FrameRecord} (sel : QueueSel) (h : q.Inv false)
    (hroom : q.count < q.cap) (hf : f.wf = true) : ∃ p, q.tryPush false 0 f = .next (true, p) ∧ q.Took sel [f] p := by
  have hp := h.toRing.tryPush_room f hroom
  exact ⟨_, hp, h.tryPush hf hp, rfl, rfl, h.tryPush_contents sel hp⟩

/-- As many pushes as there is room for all succeed (rules R100, R106). -/
theorem Queue.Inv.pushAll_took {q : Queue} {fs : List FrameRecord} (sel : QueueSel) (h : q.Inv false)
    (hroom : q.count + fs.length ≤ q.cap) (hfs : ∀ f ∈ fs, f.wf = true) :
    ∃ p, q.pushAll fs = .next (List.replicate fs.length true, p) ∧ q.Took sel fs p := by
  induction fs generalizing q with
  | nil => exact ⟨q, rfl, h.took_nil sel⟩
  | cons f fs ih =>
    rw [List.length_cons] at hroom
    obtain ⟨hf, hfs⟩ := List.forall_mem_cons.1 hfs
    obtain ⟨p, hp, hq⟩ := h.tryPush_took sel (by omega) hf
    have hcount : p.count = q.count + 1 := hq.count
    obtain ⟨r, hr, hpr⟩ := ih hq.inv (by rw [hcount, hq.cap]; omega) hfs
    exact ⟨r, by rw [Queue.pushAll, hp, andThen_next, hr]; rfl, hq.cons hpr⟩

/-- Pushing two lists one after the other is pushing the first and then the second. -/
theorem Queue.pushAll_append {q p r : Queue} {fs gs : List FrameRecord} {as bs : List Bool}
    (hf : q.pushAll fs = .next (as, p)) (hg : p.pushAll gs = .next (bs, r)) : q.pushAll (fs ++ gs) = .next (as ++ bs, r) := by
  induction fs generalizing q as with
  | nil => cases hf; exact hg
  | cons f fs ih =>
    obtain ⟨⟨b, q'⟩, hpush, hf⟩ := andThen_eq_next.1 hf
    obtain ⟨⟨as', p'⟩, hrest, hf⟩ := andThen_eq_next.1 hf
    cases hf
    rw [List.cons_append, Queue.pushAll, hpush, andThen_next, ih hrest]
    rfl

/-! ### Successive pops -/

/-- As many pops as records are queued return them, oldest first, and leave the queue empty (rules R26, R101). -/
theorem Queue.Inv.popTimes_contents {sel : QueueSel} {q : Queue} {fs : List FrameRecord} (h : q.Inv false)
    (hc : q.contents sel = fs) : ∃ r, q.popTimes sel fs.length = .next (fs.map some, r) ∧ r.count = 0 := by
  have hcount : q.count = fs.length := hc ▸ (q.contents_length sel).symm
  induction fs generalizing q with
  | nil => exact ⟨q, rfl, hcount⟩
  | cons f fs ih =>
    have hpos : 0 < q.count := hcount ▸ Nat.succ_pos _
    have hpop := h.toRing.tryPop_queued sel hpos
    obtain ⟨rfl, hrest⟩ := List.cons.inj ((Queue.contents_afterPop sel h hpos).symm.trans hc)
    obtain ⟨r, hr, hr0⟩ := ih (h.tryPop hpop) hrest (by rw [← hrest, Queue.contents_length])
    exact ⟨r, by rw [List.length_cons, Queue.popTimes, hpop, andThen_next, hr]; rfl, hr0⟩

/-- Settles O27: the pushes queue the records in order, and pops return what is queued in order. -/
theorem popOrderIsPushOrder : Obligations.PopOrderIsPushOrder := by
  unfold Obligations.PopOrderIsPushOrder
  intro sel q fs h h0 hfit hfs
  obtain ⟨p, hp, hq⟩ := h.pushAll_took sel (by omega) hfs
  have hc : p.contents sel = fs := by rw [hq.contents, Queue.contents_eq_nil sel h0, List.nil_append]
  obtain ⟨r, hr, hr0⟩ := hq.inv.popTimes_contents hc
  exact ⟨p, r, hp, hr, hr0⟩

/-- Settles O28: the push beyond the capacity finds the queue full, and a drop leaves the queued records. -/
theorem overflowLosesTheNewest : Obligations.OverflowLosesTheNewest := by
  unfold Obligations.OverflowLosesTheNewest
  intro sel q fs g h h0 hfit hfs
  obtain ⟨p, hp, hq⟩ := h.pushAll_took sel (by omega) hfs
  have hfull : p.count = p.cap := by rw [hq.count, hq.cap]; omega
  have hdrop : p.pushAll [g] = .next ([false], p.afterDrop) := by
    rw [Queue.pushAll, Queue.tryPush_exact_full g hfull]; rfl
  have hc : p.afterDrop.contents sel = fs := by
    change p.contents sel = fs
    rw [hq.contents, Queue.contents_eq_nil sel h0, List.nil_append]
  obtain ⟨r, hr, -⟩ := hq.inv.afterDrop.popTimes_contents hc
  rw [← hfit]
  exact ⟨p.afterDrop, r, Queue.pushAll_append hp hdrop, congrArg (· + 1) hq.dropped, hr⟩

/-! ### The counters -/

/-- Every TRY_PUSH counts once, as pushed or as dropped (rule R100). -/
theorem Queue.tryPush_counts {lag : Bool} {pick : Nat} {q : Queue} {f : FrameRecord} {b : Bool} {p : Queue}
    (h : q.tryPush lag pick f = .next (b, p)) : p.pushed + p.dropped = q.pushed + q.dropped + 1 := by
  have e := q.refreshProducer_eq lag pick
  rcases Queue.tryPush_cases h with ⟨-, -, rfl⟩ | ⟨-, -, -, rfl⟩ <;> rw [e]
  · rfl
  · exact Nat.add_right_comm _ _ _

/-- A TRY_POP counts in the observation `popped` exactly when it returns a record (rules R101, R110). -/
theorem Queue.tryPop_counts {sel : QueueSel} {lag : Bool} {pick : Nat} {q : Queue} {r : Option FrameRecord} {p : Queue}
    (h : q.tryPop sel lag pick = .next (r, p)) : p.popped = q.popped + r.toList.length := by
  have e := q.refreshConsumer_eq lag pick
  rcases Queue.tryPop_cases h with ⟨rfl, -, rfl⟩ | ⟨rfl, -, -, rfl⟩ <;> rw [e] <;> rfl

/-- Settles O29: each operation by its own lemma; the sum is a part of the queue's invariant, which O3 keeps. -/
theorem counterLaw : Obligations.CounterLaw := by
  unfold Obligations.CounterLaw
  intro sel lag pick q
  refine ⟨fun f b p h => Queue.tryPush_counts h, fun r p h => ?_, ⟨rfl, rfl, rfl⟩, Queue.Inv.counterLaw⟩
  obtain ⟨-, -, -, hpushed, hdropped⟩ := Queue.tryPop_keeps h
  exact ⟨Queue.tryPop_counts h, hpushed, hdropped⟩

/-! ### A push and a pop -/

/-- With a record queued and room left, a push leaves the oldest record (rule R111). -/
theorem Queue.Ring.oldest_afterPush {q : Queue} (h : q.Ring) (sel : QueueSel) (f : FrameRecord) (hq : 0 < q.count)
    (hroom : q.count < q.cap) : (q.afterPush (q.slots.write q.wptr f)).slotValue sel
      (q.afterPush (q.slots.write q.wptr f)).rptr = q.slotValue sel q.rptr :=
  congrArg (Option.getD · _) (Memory.read_write_other _ _ _ f (h.rptr_ne_wptr hroom hq))

/-- On an empty queue the record pushed is the oldest one (rule R111). -/
theorem Queue.Ring.oldest_afterPush_empty {q : Queue} (h : q.Ring) (sel : QueueSel) (f : FrameRecord) (h0 : q.count = 0) :
    (q.afterPush (q.slots.write q.wptr f)).slotValue sel (q.afterPush (q.slots.write q.wptr f)).rptr = f := by
  have hwptr : q.wptr = q.rptr := by rw [h.ring, h0, Nat.add_zero, Nat.mod_eq_of_lt h.rptrLt]
  rw [hwptr]
  exact congrArg (Option.getD · _) (Memory.read_write_same _ _ f)

/-- With a record queued, the two updates commute: they meet in the occupancy only (rule R111). -/
theorem Queue.afterPush_afterPop {q : Queue} (m : Memory) (hq : 0 < q.count) :
    q.afterPop.afterPush m = (q.afterPush m).afterPop := by
  have hcount : q.count - 1 + 1 = q.count + 1 - 1 := by omega
  simp only [Queue.afterPush, Queue.afterPop, Queue.advance, hcount]

/-- Settles O30, by the occupancy that the two operations meet: between empty and full their updates commute, on a full
queue only the pop makes room, and on an empty queue only the push gives the pop a record. -/
theorem pushAndPopInEitherOrder : Obligations.PushAndPopInEitherOrder := by
  unfold Obligations.PushAndPopInEitherOrder
  intro sel q f h
  have hr := h.toRing
  have hcap := h.capPos
  have hpushPop (hroom : q.count < q.cap) :=
    (hr.afterPush hroom (q.slots.write q.wptr f)).tryPop_queued sel (Nat.succ_pos _)
  refine ⟨fun hq hroom => ?_, fun hfull => ?_, fun h0 => ?_⟩
  · have hpop := hpushPop hroom
    rw [hr.oldest_afterPush sel f hq hroom] at hpop
    have hpush : q.afterPop.tryPush false 0 f = .next (true, q.afterPop.afterPush (q.slots.write q.wptr f)) :=
      (hr.afterPop hq).tryPush_room f (Nat.lt_of_le_of_lt (Nat.sub_le _ _) hroom)
    rw [Queue.afterPush_afterPop _ hq] at hpush
    exact ⟨_, _, _, _, hr.tryPush_room f hroom, hpop, hr.tryPop_queued sel hq, hpush⟩
  · have hq : 0 < q.count := by omega
    have hroom : q.afterPop.count < q.afterPop.cap := hfull ▸ Nat.sub_lt hq Nat.one_pos
    exact ⟨_, _, _, _, _, hr.tryPop_queued sel hq, (hr.afterPop hq).tryPush_room f hroom,
      (Nat.sub_add_cancel hq).trans hfull, rfl, Queue.tryPush_exact_full f hfull, rfl,
      hr.afterDrop.tryPop_queued sel hq, congrArg (· - 1) hfull⟩
  · have hroom : q.count < q.cap := by omega
    have hpush := hr.tryPush_room f hroom
    have hpop := hpushPop hroom
    rw [hr.oldest_afterPush_empty sel f h0] at hpop
    exact ⟨_, _, _, hpush, hpop, h0, Queue.tryPop_exact_empty sel h0, hpush, congrArg (· + 1) h0⟩

end Sys2Proof.Machine

/-! PROOF. O24, O25: CLEAR and the counter reads. A preemption point does not touch TXQ, so it does the same before a CLEAR
of TXQ and after it. -/
namespace Sys2Proof.Machine

/-! ### Notifications do not read TXQ -/

theorem State.drawPick_setTxq (s : State) (q : Queue) :
    (s.setQueue .tx q).drawPick = (s.drawPick.1, s.drawPick.2.setQueue .tx q) := by
  unfold State.drawPick State.setQueue
  dsimp only
  split
  · split <;> rfl
  · rfl

theorem State.notify_setTxq (s : State) (n : Notification) (q : Queue) :
    (s.setQueue .tx q).notify n = andThen (s.notify n) fun r => .next (r.1, r.2.setQueue .tx q) := by
  cases n with
  | rxComplete w =>
    have hpush (f : FrameRecord) : (s.setQueue .tx q).tryPush .rx f =
        andThen (s.tryPush .rx f) fun r => .next (r.1, r.2.setQueue .tx q) := by
      rw [State.tryPush, State.tryPush, State.drawPick_setTxq, andThen_assoc]
      rfl
    change andThen ((s.setQueue .tx q).tryPush .rx (decodeWire s.params.idMask w)) _ = andThen (andThen _ _) _
    rw [hpush, andThen_assoc, andThen_assoc]
    rfl
  | txComplete w => rfl
  | error w => rfl

theorem State.serve_setTxq (s : State) (l : List Arrival) (q : Queue) :
    (s.setQueue .tx q).serve l = andThen (s.serve l) fun t => .next (t.setQueue .tx q) := by
  induction l generalizing s with
  | nil => rfl
  | cons a rest ih =>
    obtain ⟨gap, n⟩ := a
    cases gap with
    | zero =>
      rw [State.serve_due, State.serve_due, State.notify_setTxq, andThen_assoc, andThen_assoc]
      exact andThen_congr fun r _ => ih r.2
    | succ g => rfl

/-- A preemption point does what it does whatever TXQ holds, and leaves it there (rule R39). -/
theorem State.preempt_setTxq {s t : State} (q : Queue) (h : s.preempt = .next t) :
    (s.setQueue .tx q).preempt = .next (t.setQueue .tx q) := by
  unfold State.preempt at h ⊢
  rw [State.setQueue_started, State.setQueue_arrivals]
  split at h
  · rw [if_pos ‹_›, State.serve_setTxq, h]; rfl
  · cases h; rw [if_neg ‹_›]

/-! ### CLEAR -/

/-- A CLEAR that no NOTIFY_RX overlaps empties the queue and then lets the notifications due run (rules R68, R104). -/
theorem exec_clear_eq {s : State} {q : QueueSel} (hp : s.issuer = .poll)
    (h : q = .tx ∨ s.started = none ∨ rxDue s.arrivals = false) :
    exec (.clear q) s = andThen (s.clearQueue q).preempt fun t => .next (t.finish .none none) := by
  change withContext _ _ (if _ then _ else _) = _
  rw [withContext, hp, if_pos (by rfl), clearOverlapped_eq_false h]
  rfl

theorem exec_clear_overlapped {s : State} (hp : s.issuer = .poll) (hs : s.started.isSome = true)
    (hd : rxDue s.arrivals = true) : exec (.clear .rx) s = .refused .clearOverlap := by
  have hover : clearOverlapped .rx s = true := by rw [clearOverlapped, hs, hd]; rfl
  change withContext _ _ (if _ then _ else _) = _
  rw [withContext, hp, if_pos (by rfl), if_pos hover]

theorem State.Undisturbed.not_rxDue {s : State} (h : s.Undisturbed) : s.started = none ∨ rxDue s.arrivals = false :=
  h.imp_right fun ha => by rw [ha]; rfl

theorem State.Undisturbed.clearQueue {s : State} (h : s.Undisturbed) (q : QueueSel) : (s.clearQueue q).Undisturbed := by
  simpa [State.Undisturbed, State.clearQueue] using h

/-- Settles O24, by what the preemption point in CLEAR does. -/
theorem clearResetsPointers : Obligations.ClearResetsPointers := by
  unfold Obligations.ClearResetsPointers
  intro s q hp
  refine ⟨fun hu => ?_, fun hs hd => ?_, fun t hq ht => ?_, fun hq hs hd => ?_⟩
  · rw [exec_clear_eq hp (.inr hu.not_rxDue), State.preempt_undisturbed (hu.clearQueue q)]
    rfl
  · have hs' : (s.clearQueue q).started.isSome = true := by rwa [State.clearQueue, State.setQueue_started]
    have ha : (s.clearQueue q).arrivals = s.arrivals := State.setQueue_arrivals ..
    have hb : (s.clearQueue q).busErrors = s.busErrors := State.setQueue_busErrors ..
    rw [exec_clear_eq hp (.inr (.inr hd)), State.preempt_started hs', ha, State.serve_of_not_rxDue _ hd, hb]
    rfl
  · subst hq
    rw [exec_clear_eq hp (.inl rfl), State.clearQueue, State.preempt_setTxq _ ht]
    rfl
  · subst hq
    exact exec_clear_overlapped hp hs hd

theorem exec_rdPushed_eq (s : State) (q : QueueSel) :
    exec (.rdPushed q) s = .next (s.finish (.nat (s.queue q).pushed) none) := by
  rw [exec, execRdPushed, withContext_eq_next]
  exact ⟨by cases s.issuer <;> rfl, rfl⟩

theorem exec_rdDropped_eq (s : State) (q : QueueSel) :
    exec (.rdDropped q) s = .next (s.finish (.nat (s.queue q).dropped) none) := by
  rw [exec, execRdDropped, withContext_eq_next]
  exact ⟨by cases s.issuer <;> rfl, rfl⟩

/-- Settles O25: either context may read a counter, and the read finishes with it. -/
theorem counterReadsGiveTheCounters : Obligations.CounterReadsGiveTheCounters := by
  unfold Obligations.CounterReadsGiveTheCounters
  exact fun s q => ⟨exec_rdPushed_eq s q, exec_rdDropped_eq s q⟩

end Sys2Proof.Machine

/-! PROOF. O32, O44, O46, O47, O49: the Transport's operations that send and receive nothing. -/
namespace Sys2Proof.Machine

/-! ### An operation that may be issued, in its Transport state -/

theorem withContext_permitted {i : Instr} {s : State} {k : Res State} (h : permitted s.issuer i = true) :
    withContext i s k = k :=
  if_pos h

theorem whenRunning_running {s : State} {k : Res State} (h : s.runState = .running) : whenRunning s k = k := by
  rw [whenRunning, h]

theorem whenRunning_stopped {s : State} {k : Res State} (h : s.runState = .stopped) :
    whenRunning s k = .refused (.misuse .notRunning) := by
  rw [whenRunning, h]

theorem whenNotifiable_stopped {s : State} {k : Res State} (h : s.runState = .stopped) :
    whenNotifiable s k = .refused .notifyWhileStopped := by
  rw [whenNotifiable, h]

theorem permitted_of_poll {s : State} {i : Instr} (hp : s.issuer = .poll) (h : permitted .poll i = true) :
    permitted s.issuer i = true :=
  hp ▸ h

theorem permitted_of_notify {s : State} {i : Instr} (hn : s.issuer = .notify) (h : permitted .notify i = true) :
    permitted s.issuer i = true :=
  hn ▸ h

/-! ### BEGIN and RESET -/

/-- The preemption point of a started state and Running after it, with which BEGIN and RESET end (rules R121, R128). -/
def State.enterRunning (u : State) : Res State :=
  andThen u.preempt fun t => .next { t with runState := .running, result := .none, cause := none }

theorem State.enterRunning_quiet {u : State} (h : u.arrivals = []) :
    u.enterRunning = .next { u with runState := .running, result := .none, cause := none } := by
  rw [State.enterRunning, State.preempt_quiet h]
  rfl

theorem State.beginSteps_finish (s : State) :
    (andThen s.beginSteps fun t => .next (t.finish .none none)) = s.begun.enterRunning := by
  rw [State.beginSteps_eq, andThen_assoc]
  rfl

theorem exec_beginRun_eq {s : State} (hp : s.issuer = .poll) (hs : s.runState = .stopped) :
    exec .beginRun s = s.begun.enterRunning := by
  rw [← State.beginSteps_finish, exec, execBeginRun, withContext_permitted (permitted_of_poll hp rfl), hs]

/-- Settles O32: BEGIN is the preemption point of the begun state and Running after it, and the point is quiet when no
notification is coming. -/
theorem beginStartsTheTransport : Obligations.BeginStartsTheTransport := by
  unfold Obligations.BeginStartsTheTransport
  intro s hp hs
  have h := exec_beginRun_eq hp hs
  exact ⟨fun ha => h.trans (State.enterRunning_quiet (u := s.begun) ha), h⟩

/-- RESET is BEGIN's steps on the stopped Transport with its queues cleared (rule R128). -/
theorem exec_reset_eq {s : State} (hp : s.issuer = .poll) (hr : s.runState = .running) :
    exec .reset s = State.enterRunning { s.begun with runState := .stopped } := by
  rw [exec, execReset, withContext_permitted (permitted_of_poll hp rfl), whenRunning_running hr, State.beginSteps_finish]
  rfl

/-- Settles O44: clearing the queues twice is clearing them once, so RESET ends as BEGIN does. -/
theorem resetReinitialises : Obligations.ResetReinitialises := by
  unfold Obligations.ResetReinitialises
  intro s hp hr
  have h := exec_reset_eq hp hr
  exact ⟨fun ha => h.trans (State.enterRunning_quiet (u := { s.begun with runState := .stopped }) ha), h⟩

/-! ### STOP and the reads -/

/-- Settles O46, by the Transport state. -/
theorem stopKeepsQueuesAndCounters : Obligations.StopKeepsQueuesAndCounters := by
  unfold Obligations.StopKeepsQueuesAndCounters
  intro s hp
  have hperm : permitted s.issuer .stop = true := permitted_of_poll hp rfl
  exact ⟨fun hr => (withContext_permitted hperm).trans (whenRunning_running hr),
    fun hs => (withContext_permitted hperm).trans (whenRunning_stopped hs)⟩

/-- Settles O47: POLL may issue each of the three, and none asks for the Transport state. -/
theorem countReadsGiveTheStatistics : Obligations.CountReadsGiveTheStatistics := by
  unfold Obligations.CountReadsGiveTheStatistics
  intro s hp
  exact ⟨withContext_permitted (permitted_of_poll hp rfl), withContext_permitted (permitted_of_poll hp rfl),
    withContext_permitted (permitted_of_poll hp rfl)⟩

/-! ### The notifications that move no queue -/

theorem notified_eq {s : State} {i : Instr} {n : Notification} (hperm : permitted s.issuer i = true)
    (hr : s.runState = .running) : withContext i s (whenNotifiable s (s.notifyOp n)) = s.notifyOp n :=
  (withContext_permitted hperm).trans (whenNotifiable_running hr)

/-- Settles O49: a TxComplete does nothing and an Error counts. -/
theorem notifyTxAndErrEffects : Obligations.NotifyTxAndErrEffects := by
  unfold Obligations.NotifyTxAndErrEffects
  intro s w hn hr
  exact ⟨notified_eq (permitted_of_notify hn rfl) hr, notified_eq (permitted_of_notify hn rfl) hr⟩

end Sys2Proof.Machine

/-! PROOF. O39, O41, O48: the Transport's operations that are one TRY_PUSH or TRY_POP, undisturbed. Each ends as that queue
operation does, with its own result and count, so its two regimes of SYNC_LAG are those of O17 to O20. -/
namespace Sys2Proof.Machine

/-! ### Undisturbed -/

theorem State.Undisturbed.of_eq {s t : State} (h : s.Undisturbed) (hs : t.started = s.started)
    (ha : t.arrivals = s.arrivals) : t.Undisturbed := by
  rw [State.Undisturbed, hs, ha]
  exact h

theorem State.Undisturbed.askEngine {s : State} (h : s.Undisturbed) : s.askEngine.2.Undisturbed :=
  h.of_eq s.askEngine_started s.askEngine_arrivals

theorem State.Undisturbed.tryPop {s t : State} {sel : QueueSel} {r : Option FrameRecord} (h : s.Undisturbed)
    (ht : s.tryPop sel = .next (r, t)) : t.Undisturbed := by
  obtain ⟨p, -, rfl⟩ := State.tryPop_cases ht
  exact h.of_eq (by simp) (by simp)

theorem State.Undisturbed.tryPush {s t : State} {sel : QueueSel} {f : FrameRecord} {b : Bool} (h : s.Undisturbed)
    (ht : s.tryPush sel f = .next (b, t)) : t.Undisturbed := by
  obtain ⟨p, -, rfl⟩ := State.tryPush_cases ht
  exact h.of_eq (by simp) (by simp)

/-! ### The queue operation as presented and as a part -/

/-- A TRY_POP presented answers what TRY_POP answers, and the oracle is a draw further (rules R61, R101). -/
theorem exec_tryPop_cases {s u : State} {sel : QueueSel} (h : exec (.tryPop sel) s = .next u) :
    u.oracle = s.drawPick.2.oracle ∧ ∃ r t, s.tryPop sel = .next (r, t) ∧ u = t.finish (.optFrame r) none := by
  obtain ⟨-, h⟩ := withContext_eq_next.1 h
  obtain ⟨⟨r, t⟩, ht, h⟩ := andThen_eq_next.1 h
  obtain ⟨p, -, rfl⟩ := State.tryPop_cases ht
  cases h
  exact ⟨by simp, r, _, ht, rfl⟩

/-- A TRY_PUSH presented answers what TRY_PUSH answers, and the oracle is a draw further (rules R61, R100). -/
theorem exec_tryPush_cases {s u : State} {sel : QueueSel} {f : FrameRecord} (h : exec (.tryPush sel f) s = .next u) :
    u.oracle = s.drawPick.2.oracle ∧
      ∃ b t, s.tryPush sel f = .next (b, t) ∧ u = t.finish (.bool b) (if b then none else some .queueFull) := by
  obtain ⟨-, h⟩ := withContext_eq_next.1 h
  obtain ⟨⟨b, t⟩, ht, h⟩ := andThen_eq_next.1 h
  obtain ⟨p, -, rfl⟩ := State.tryPush_cases ht
  cases h
  exact ⟨by simp, b, _, ht, rfl⟩

/-! ### GET_NEXT_FRAME -/

/-- How GET_NEXT_FRAME returns what its TRY_POP answered (rule R123). -/
def State.returnFrame (t : State) : Option FrameRecord → State
  | some f => t.countReceived.finish (.frame f) none
  | none => t.finish (.frame zeroFrame) (some (.misuse .getNextWhenEmpty))

/-- Undisturbed, GET_NEXT_FRAME is a TRY_POP of RXQ whose answer it returns in its own way (rule R123). -/
theorem exec_getNextFrame_of_tryPop {s u : State} {r : Option FrameRecord} (hp : s.issuer = .poll)
    (hr : s.runState = .running) (hu : s.Undisturbed) (h : exec (.tryPop .rx) s = .next u)
    (hres : u.result = .optFrame r) : exec .getNextFrame s = .next (u.returnFrame r) := by
  obtain ⟨-, r', t, ht, rfl⟩ := exec_tryPop_cases h
  obtain rfl : r' = r := by simpa using hres
  rw [exec, execGetNextFrame, withContext_permitted (permitted_of_poll hp rfl), whenRunning_running hr, ht, andThen_next,
    State.preempt_undisturbed (hu.tryPop ht)]
  cases r' <;> rfl

/-- Settles O39, from what TRY_POP of RXQ does without SYNC_LAG (O19) and with it (O20). -/
theorem getNextFramePopsOne : Obligations.GetNextFramePopsOne := by
  unfold Obligations.GetNextFramePopsOne
  intro s hp hr hu
  have hperm : permitted s.issuer (.tryPop .rx) = true := permitted_of_poll hp rfl
  refine ⟨fun hl hrptr => ?_, fun hl hi => ?_⟩
  · obtain ⟨hempty, hqueued⟩ := tryPopReturnsTheOldest s .rx hperm hl hrptr
    exact ⟨fun h => exec_getNextFrame_of_tryPop hp hr hu (hempty h) rfl,
      fun h => exec_getNextFrame_of_tryPop hp hr hu (hqueued h) rfl⟩
  · obtain ⟨seen, o, hge, hle, hempty, hqueued⟩ := tryPopUnderSyncLag s .rx hperm hl hi
    refine ⟨seen, hge, hle, fun h => ?_, fun h => ⟨(hqueued h).1, ?_⟩⟩
    · have hpop := hempty h
      obtain rfl : o = s.drawPick.2.oracle := (exec_tryPop_cases hpop).1
      exact exec_getNextFrame_of_tryPop hp hr hu hpop rfl
    · have hpop := (hqueued h).2
      obtain rfl : o = s.drawPick.2.oracle := (exec_tryPop_cases hpop).1
      exact exec_getNextFrame_of_tryPop hp hr hu hpop rfl

/-! ### NOTIFY_RX -/

/-- NOTIFY_RX is a TRY_PUSH of the decoded frame into RXQ that returns nothing (rule R125). -/
theorem exec_notifyRx_of_tryPush {s u : State} {w : WireMessage} (hn : s.issuer = .notify) (hr : s.runState = .running)
    (h : exec (.tryPush .rx (decodeWire s.params.idMask w)) s = .next u) :
    exec (.notifyRx w) s = .next { u with result := .none } := by
  obtain ⟨-, b, t, ht, rfl⟩ := exec_tryPush_cases h
  rw [exec, execNotifyRx, notified_eq (permitted_of_notify hn rfl) hr, State.notifyOp, State.notify, ht]
  rfl

/-- Settles O48, from what TRY_PUSH into RXQ does without SYNC_LAG (O17) and with it (O18). -/
theorem notifyRxQueuesTheDecodedFrame : Obligations.NotifyRxQueuesTheDecodedFrame := by
  unfold Obligations.NotifyRxQueuesTheDecodedFrame
  intro s w hn hr
  have hperm : permitted s.issuer (.tryPush .rx (decodeWire s.params.idMask w)) = true := permitted_of_notify hn rfl
  refine ⟨fun hl hw => ?_, fun hl hi => ?_⟩
  · obtain ⟨hfull, hroom⟩ := tryPushStoresOrDrops s .rx _ hperm hl hw
    refine ⟨fun h => ?_, fun h => exec_notifyRx_of_tryPush hn hr (hfull h)⟩
    obtain ⟨m, hpush, hm⟩ := hroom h
    exact ⟨m, exec_notifyRx_of_tryPush hn hr hpush, hm⟩
  · obtain ⟨seen, o, hge, hle, hfull, hroom⟩ := tryPushUnderSyncLag s .rx _ hperm hl hi
    refine ⟨seen, hge, hle, fun h => ?_, fun h => ?_⟩
    · obtain ⟨hlt, m, hpush, hm⟩ := hroom h
      obtain rfl : o = s.drawPick.2.oracle := (exec_tryPush_cases hpush).1
      exact ⟨hlt, m, exec_notifyRx_of_tryPush hn hr hpush, hm⟩
    · have hpush := hfull h
      obtain rfl : o = s.drawPick.2.oracle := (exec_tryPush_cases hpush).1
      exact exec_notifyRx_of_tryPush hn hr hpush

/-! ### SEND -/

theorem exec_send_undisturbed {s : State} {f : FrameRecord} (hp : s.issuer = .poll) (hr : s.runState = .running)
    (hu : s.Undisturbed) (hf : f.length.toNat ≤ 8) :
    exec (.send f) s = if s.askEngine.1 then s.askEngine.2.sendDirect f else s.askEngine.2.sendQueued f := by
  rw [exec_send_eq hp hr hf, State.preempt_undisturbed hu, andThen_next, State.sendFrom,
    State.preempt_undisturbed hu.askEngine, andThen_next]

/-- How SEND returns what its TRY_PUSH answered (rule R124). -/
def State.returnQueued (t : State) : Bool → State
  | true => t
  | false => t.countSendError

/-- Undisturbed and with an Engine that is not ready, SEND is a TRY_PUSH into TXQ whose failure is counted (rule R124). -/
theorem exec_send_of_tryPush {s u : State} {f : FrameRecord} {b : Bool} (hp : s.issuer = .poll)
    (hr : s.runState = .running) (hu : s.Undisturbed) (hf : f.length.toNat ≤ 8) (hask : s.askEngine.1 = false)
    (h : exec (.tryPush .tx f) s.askEngine.2 = .next u) (hres : u.result = .bool b) :
    exec (.send f) s = .next (u.returnQueued b) := by
  obtain ⟨-, b', t, ht, rfl⟩ := exec_tryPush_cases h
  obtain rfl : b' = b := by simpa using hres
  rw [exec_send_undisturbed hp hr hu hf, hask, if_neg (by decide), State.sendQueued, ht, andThen_next,
    State.preempt_undisturbed (hu.askEngine.tryPush ht)]
  cases b' <;> rfl

/-- Settles O41, from what TRY_PUSH into TXQ does without SYNC_LAG (O17) and with it (O18), once the Engine has answered. -/
theorem sendQueuedPath : Obligations.SendQueuedPath := by
  unfold Obligations.SendQueuedPath
  intro s f hp hr hu hf hask
  obtain ⟨o, ho⟩ : ∃ o, s.askEngine.2 = { s with oracle := o } := ⟨_, s.askEngine_eq⟩
  have hsend (b : Bool) {u : State} (h : exec (.tryPush .tx f) { s with oracle := o } = .next u) :=
    exec_send_of_tryPush (b := b) hp hr hu hf hask (ho ▸ h)
  rw [ho]
  have hperm : permitted s.issuer (.tryPush .tx f) = true := permitted_of_poll hp rfl
  refine ⟨fun hl hw => ?_, fun hl hi => ?_⟩
  · obtain ⟨hfull, hroom⟩ := tryPushStoresOrDrops { s with oracle := o } .tx f hperm hl hw
    refine ⟨fun h => ?_, fun h => hsend false (hfull h) rfl⟩
    obtain ⟨m, hpush, hm⟩ := hroom h
    exact ⟨m, hsend true hpush rfl, hm⟩
  · obtain ⟨seen, o', hge, hle, hfull, hroom⟩ := tryPushUnderSyncLag { s with oracle := o } .tx f hperm hl hi
    refine ⟨seen, hge, hle, fun h => ?_, fun h => ?_⟩
    · obtain ⟨hlt, m, hpush, hm⟩ := hroom h
      obtain rfl : o' = _ := (exec_tryPush_cases hpush).1
      exact ⟨hlt, m, hsend true hpush rfl, hm⟩
    · have hpush := hfull h
      obtain rfl : o' = _ := (exec_tryPush_cases hpush).1
      exact hsend false hpush rfl

end Sys2Proof.Machine

/-! PROOF. O33, O34, O37, O38, O40, O42: SEND's direct path, its three outcomes, and one turn of an undisturbed drain. -/
namespace Sys2Proof.Machine

/-! ### SEND, submitted -/

/-- The Engine's answer is read off the oracle, and nothing else of the state. -/
theorem State.askEngine_of_oracle {s t : State} (h : t.oracle = s.oracle) :
    t.askEngine = (s.askEngine.1, { t with oracle := s.askEngine.2.oracle }) := by
  unfold State.askEngine
  rw [h]
  split <;> rfl

/-- The state after an accepted submission that is counted (rules R122, R124). -/
def State.accepted (s : State) (f : FrameRecord) : State :=
  { s with oracle := s.oracleAfterSubmit, engineLog := s.engineLog ++ [s.offered f], framesSent := s.framesSent + 1 }

/-- The state after a rejected submission that is counted (rules R122, R124). -/
def State.rejected (s : State) : State := { s with oracle := s.oracleAfterSubmit, sendErrors := s.sendErrors + 1 }

theorem State.submit_accepted {s : State} {f : FrameRecord} (hf : f.length.toNat ≤ 8) (hask : s.askEngine.1 = true) :
    ∃ t, s.submit f = .next (true, t) ∧ t.countSent = s.accepted f ∧ (s.Undisturbed → t.Undisturbed) := by
  refine ⟨{ s with oracle := s.oracleAfterSubmit, engineLog := s.engineLog ++ [s.offered f] }, ?_, rfl, id⟩
  rw [State.submit_eq (lengthValid_iff.2 hf), hask]
  rfl

theorem State.submit_rejected {s : State} {f : FrameRecord} (hf : f.length.toNat ≤ 8) (hask : s.askEngine.1 = false) :
    ∃ t, s.submit f = .next (false, t) ∧ t.countSendError = s.rejected ∧ (s.Undisturbed → t.Undisturbed) := by
  refine ⟨{ s with oracle := s.oracleAfterSubmit }, ?_, rfl, id⟩
  rw [State.submit_eq (lengthValid_iff.2 hf), hask, if_neg (by decide), List.append_nil]

theorem State.sendDirect_accepted {s : State} {f : FrameRecord} (hu : s.Undisturbed) (hf : f.length.toNat ≤ 8)
    (hask : s.askEngine.1 = true) : s.sendDirect f = .next ((s.accepted f).finish (.bool true) none) := by
  obtain ⟨t, ht, hcount, hut⟩ := State.submit_accepted hf hask
  rw [State.sendDirect, ht, andThen_next, State.preempt_undisturbed (hut hu), ← hcount]
  rfl

theorem State.sendDirect_rejected {s : State} {f : FrameRecord} (hu : s.Undisturbed) (hf : f.length.toNat ≤ 8)
    (hask : s.askEngine.1 = false) :
    s.sendDirect f = .next (s.rejected.finish (.bool false) (some .engineRejected)) := by
  obtain ⟨t, ht, hcount, hut⟩ := State.submit_rejected hf hask
  rw [State.sendDirect, ht, andThen_next, State.preempt_undisturbed (hut hu), ← hcount]
  rfl

/-- Settles O40, by the Engine's second answer. -/
theorem sendDirectPath : Obligations.SendDirectPath := by
  unfold Obligations.SendDirectPath
  intro s f hp hr hu hwf hf hask
  obtain ⟨o, ho⟩ : ∃ o, s.askEngine.2 = { s with oracle := o } := ⟨_, s.askEngine_eq⟩
  have htails : o.tails = s.oracle.tails := by have h := s.askEngine_oracle.2.2; rwa [ho] at h
  have hua : State.Undisturbed { s with oracle := o } := hu
  rw [exec_send_undisturbed hp hr hu hf, hask, if_pos rfl, ho, ← htails]
  exact ⟨fun h => ⟨_, encodeFrame_encodedAs _ hwf hf, State.sendDirect_accepted hua hf h⟩,
    fun h => State.sendDirect_rejected hua hf h⟩

/-! ### The statistics of a SEND -/

/-- From `s` to `t` so many frames were counted as sent, as lost and as enqueued, and none as received (rule R138). -/
structure State.Counted (s t : State) (sent errors pushed : Nat) : Prop where
  framesSent : t.framesSent = s.framesSent + sent
  sendErrors : t.sendErrors = s.sendErrors + errors
  pushed : t.txq.pushed = s.txq.pushed + pushed
  framesReceived : t.framesReceived = s.framesReceived

theorem State.Counted.trans {s t u : State} {a b c a' b' c' : Nat} (h : s.Counted t a b c) (h' : t.Counted u a' b' c') :
    s.Counted u (a + a') (b + b') (c + c') where
  framesSent := by rw [h'.framesSent, h.framesSent, Nat.add_assoc]
  sendErrors := by rw [h'.sendErrors, h.sendErrors, Nat.add_assoc]
  pushed := by rw [h'.pushed, h.pushed, Nat.add_assoc]
  framesReceived := h'.framesReceived.trans h.framesReceived

theorem State.Counted.countSent {s t : State} {a b c : Nat} (h : s.Counted t a b c) : s.Counted t.countSent (a + 1) b c :=
  { h with framesSent := congrArg (· + 1) h.framesSent }

theorem State.Counted.countSendError {s t : State} {a b c : Nat} (h : s.Counted t a b c) :
    s.Counted t.countSendError a (b + 1) c :=
  { h with sendErrors := congrArg (· + 1) h.sendErrors }

theorem State.preempt_counted {s t : State} (h : s.preempt = .next t) : s.Counted t 0 0 0 := by
  obtain ⟨q, n, a, ps, k, rfl, -, -⟩ := State.preempt_notifiedTo h
  exact ⟨rfl, rfl, rfl, rfl⟩

theorem State.askEngine_counted (s : State) : s.Counted s.askEngine.2 0 0 0 := by
  rw [s.askEngine_eq]
  exact ⟨rfl, rfl, rfl, rfl⟩

theorem State.submit_counted {s : State} {f : FrameRecord} {r : Bool × State} (h : s.submit f = .next r) :
    s.Counted r.2 0 0 0 := by
  obtain ⟨-, rfl⟩ := State.submit_cases h
  exact ⟨rfl, rfl, rfl, rfl⟩

/-- A TRY_PUSH counts in `pushed` exactly when it succeeds (rule R100). -/
theorem Queue.tryPush_pushed {lag : Bool} {pick : Nat} {q : Queue} {f : FrameRecord} {b : Bool} {p : Queue}
    (h : q.tryPush lag pick f = .next (b, p)) : p.pushed = q.pushed + if b then 1 else 0 := by
  have e := q.refreshProducer_eq lag pick
  rcases Queue.tryPush_cases h with ⟨rfl, -, rfl⟩ | ⟨rfl, -, -, rfl⟩ <;> rw [e] <;> rfl

theorem State.tryPush_counted {s t : State} {f : FrameRecord} {b : Bool} (h : s.tryPush .tx f = .next (b, t)) :
    s.Counted t 0 0 (if b then 1 else 0) := by
  obtain ⟨p, hp, rfl⟩ := State.tryPush_cases h
  rw [s.drawPick_eq]
  exact ⟨rfl, rfl, Queue.tryPush_pushed hp, rfl⟩

/-- From `s` to `t` one frame was submitted, lost or enqueued, and the result is false where it was lost (rule R138). -/
def State.SentOnce (s t : State) : Prop :=
  ∃ sent errors pushed, s.Counted t sent errors pushed ∧ sent + errors + pushed = 1 ∧
    t.result = .bool (decide (errors = 0))

theorem State.sendDirect_sentOnce {s a t : State} {f : FrameRecord} (ha : s.Counted a 0 0 0)
    (h : a.sendDirect f = .next t) : s.SentOnce t := by
  obtain ⟨⟨b, u⟩, hu, h⟩ := andThen_eq_next.1 h
  obtain ⟨v, hv, h⟩ := andThen_eq_next.1 h
  have hs := (ha.trans (State.submit_counted hu)).trans (State.preempt_counted hv)
  cases b with
  | true => cases h; exact ⟨1, 0, 0, { hs.countSent with }, rfl, rfl⟩
  | false => cases h; exact ⟨0, 1, 0, { hs.countSendError with }, rfl, rfl⟩

theorem State.sendQueued_sentOnce {s a t : State} {f : FrameRecord} (ha : s.Counted a 0 0 0)
    (h : a.sendQueued f = .next t) : s.SentOnce t := by
  obtain ⟨⟨b, u⟩, hu, h⟩ := andThen_eq_next.1 h
  obtain ⟨v, hv, h⟩ := andThen_eq_next.1 h
  have hs := (ha.trans (State.tryPush_counted hu)).trans (State.preempt_counted hv)
  cases b with
  | true => cases h; exact ⟨0, 0, 1, { hs with }, rfl, rfl⟩
  | false => cases h; exact ⟨0, 1, 0, { hs.countSendError with }, rfl, rfl⟩

theorem execSend_sentOnce {s t : State} {f : FrameRecord} (h : execSend f s = .next t) : s.SentOnce t := by
  obtain ⟨-, h⟩ := withContext_eq_next.1 h
  obtain ⟨-, h⟩ := whenRunning_eq_next.1 h
  split at h
  · obtain ⟨a, ha, h⟩ := andThen_eq_next.1 h
    obtain ⟨b, hb, h⟩ := andThen_eq_next.1 h
    have hs := ((State.preempt_counted ha).trans a.askEngine_counted).trans (State.preempt_counted hb)
    split at h
    · exact State.sendDirect_sentOnce hs h
    · exact State.sendQueued_sentOnce hs h
  · cases h

/-- Settles O42: what a SEND counts adds up to one, and its result says whether that was an error. -/
theorem sendHasExactlyOneOutcome : Obligations.SendHasExactlyOneOutcome := by
  unfold Obligations.SendHasExactlyOneOutcome
  intro s t f h
  obtain ⟨sent, errors, pushed, ⟨hsent, herr, hpush, hrec⟩, hone, hres⟩ := execSend_sentOnce h
  rw [hsent, herr, hpush, hres]
  exact ⟨by omega, by simp, Nat.le_add_right _ _, Nat.le_add_right _ _, Nat.le_add_right _ _, hrec⟩

/-! ### One turn of an undisturbed drain, without SYNC_LAG -/

/-- TRY_POP of the state where a record is queued, no draw used (rules R60, R101). -/
theorem State.tryPop_exact_queued {s : State} {sel : QueueSel} (hl : s.params.syncLag = false)
    (hq : (s.queue sel).count ≠ 0) (hr : (s.queue sel).rptr < (s.queue sel).cap) :
    s.tryPop sel = .next (some ((s.queue sel).slotValue sel (s.queue sel).rptr), s.setQueue sel (s.queue sel).afterPop) := by
  have hflag : ¬ (s.queue sel).emptyFlag false = true := fun h => hq (beq_iff_eq.1 h)
  rw [State.tryPop_exact sel hl, Queue.tryPop, Queue.refreshConsumer_exact, if_neg hflag, memRead_eq_next.2 ⟨hr, rfl⟩]
  rfl

section
variable {s : State} {n : Nat}

theorem State.drain_empty (hl : s.params.syncLag = false) (h0 : s.txq.count = 0) : s.drain (n + 1) = .next (false, s) := by
  rw [State.drain, State.testEmpty_exact .tx hl, State.queue_tx, if_pos (beq_iff_eq.2 h0)]

/-- With a frame waiting the Engine is asked, and one that is not ready ends the drain (rule R122). -/
theorem State.drain_notReady (hu : s.Undisturbed) (hl : s.params.syncLag = false) (hq : s.txq.count ≠ 0)
    (hask : s.askEngine.1 = false) : s.drain (n + 1) = .next (false, s.askEngine.2) := by
  rw [State.drain, State.testEmpty_exact .tx hl, State.queue_tx, if_neg (fun h => hq (beq_iff_eq.1 h)),
    State.preempt_undisturbed hu, andThen_next, hask, if_neg (by decide)]

/-- The state once the drain has asked the Engine and popped the oldest frame (rule R122). -/
def State.askedAndPopped (s : State) : State := { s with oracle := s.askEngine.2.oracle, txq := s.txq.afterPop }

theorem State.askEngine_askedAndPopped (s : State) : s.askedAndPopped.askEngine =
    (s.askEngine.2.askEngine.1, { s.askedAndPopped with oracle := s.askEngine.2.askEngine.2.oracle }) :=
  State.askEngine_of_oracle rfl

/-- A rejected frame of the drain, with the two answers of the Engine and the tail bytes it used (rules R122, R136). -/
theorem State.askedAndPopped_rejected (s : State) : s.askedAndPopped.rejected =
    { s with oracle := { s.askEngine.2.askEngine.2.oracle with tails := s.oracle.tails + 1 },
             sendErrors := s.sendErrors + 1, txq := s.txq.afterPop } := by
  have htails : s.askedAndPopped.oracle.tails = s.oracle.tails := s.askEngine_oracle.2.2
  rw [State.rejected, State.oracleAfterSubmit, s.askEngine_askedAndPopped, htails]
  rfl

/-- With an Engine that is ready the oldest frame is popped and its turn taken (rule R122). -/
theorem State.drain_ready (hu : s.Undisturbed) (hl : s.params.syncLag = false) (hq : s.txq.count ≠ 0)
    (hr : s.txq.rptr < s.txq.cap) (hask : s.askEngine.1 = true) :
    s.drain (n + 1) = s.askedAndPopped.drainTurn (State.drain n) (s.txq.slotValue .tx s.txq.rptr) := by
  have hpop : s.askEngine.2.tryPop .tx = .next (some (s.txq.slotValue .tx s.txq.rptr), s.askedAndPopped) := by
    rw [s.askEngine_eq]
    exact State.tryPop_exact_queued (sel := .tx) hl hq hr
  have hut : s.askedAndPopped.Undisturbed := hu
  rw [State.drain, State.testEmpty_exact .tx hl, State.queue_tx, if_neg (fun h => hq (beq_iff_eq.1 h)),
    State.preempt_undisturbed hu, andThen_next, hask, if_pos rfl, State.preempt_undisturbed hu.askEngine, andThen_next,
    hpop, andThen_next, State.preempt_undisturbed hut]
  rfl

variable {again : State → Res (Bool × State)} {f : FrameRecord}

theorem State.drainTurn_accepted (hu : s.Undisturbed) (hf : f.length.toNat ≤ 8) (hask : s.askEngine.1 = true) :
    s.drainTurn again f = again (s.accepted f) := by
  obtain ⟨t, ht, hcount, hut⟩ := State.submit_accepted hf hask
  have hua : (s.accepted f).Undisturbed := hu
  rw [State.drainTurn, ht, andThen_next, State.preempt_undisturbed (hut hu), andThen_next, if_pos rfl, hcount,
    State.preempt_undisturbed hua, andThen_next]

theorem State.drainTurn_rejected (hu : s.Undisturbed) (hf : f.length.toNat ≤ 8) (hask : s.askEngine.1 = false) :
    s.drainTurn again f = .next (true, s.rejected) := by
  obtain ⟨t, ht, hcount, hut⟩ := State.submit_rejected hf hask
  rw [State.drainTurn, ht, andThen_next, State.preempt_undisturbed (hut hu), ← hcount]
  rfl

theorem State.drainTurn_refused (hf : 8 < f.length.toNat) : s.drainTurn again f = .refused (.misuse .encodeLength) := by
  have hlen : f.lengthValid = false := decide_eq_false (Nat.not_le_of_lt hf)
  rw [State.drainTurn, State.submit_refused hlen]
  rfl

/-! ### AVAILABLE -/

theorem exec_available_eq (hp : s.issuer = .poll) (hr : s.runState = .running) :
    exec .available s = andThen (s.drain (s.txq.count + 1)) fun d =>
      andThen d.2.preempt fun t =>
        .next ((t.testEmpty .rx).2.finish (.bool (!(t.testEmpty .rx).1)) (if d.1 then some .engineRejected else none)) := by
  rw [exec, execAvailable, withContext_permitted (permitted_of_poll hp rfl), whenRunning_running hr]
  rfl

/-- Undisturbed and without SYNC_LAG, AVAILABLE leaves what its drain leaves, and reports on RXQ (rule R122). -/
theorem exec_available_of_drain {t : State} {b : Bool} (hp : s.issuer = .poll) (hr : s.runState = .running)
    (hu : t.Undisturbed) (hl : t.params.syncLag = false) (h : s.drain (s.txq.count + 1) = .next (b, t)) :
    exec .available s =
      .next (t.finish (.bool (decide (t.rxq.count ≠ 0))) (if b then some .engineRejected else none)) := by
  have hdecide : (!(t.rxq.count == 0)) = decide (t.rxq.count ≠ 0) := by
    rw [decide_not]; rfl
  rw [exec_available_eq hp hr, h, andThen_next, State.preempt_undisturbed hu, andThen_next,
    State.testEmpty_exact .rx hl, State.queue_rx, hdecide]

end

/-- Settles O34: the drain ends where it finds TXQ empty. -/
theorem availableWithNothingToSend : Obligations.AvailableWithNothingToSend := by
  unfold Obligations.AvailableWithNothingToSend
  intro s hp hr hu hl h0
  exact exec_available_of_drain hp hr hu hl (State.drain_empty hl h0)

/-- Settles O37: the drain ends with the Engine's answer. -/
theorem drainStopsWhenEngineIsNotReady : Obligations.DrainStopsWhenEngineIsNotReady := by
  unfold Obligations.DrainStopsWhenEngineIsNotReady
  intro s hp hr hu hl hq hask
  obtain ⟨o, ho⟩ : ∃ o, s.askEngine.2 = { s with oracle := o } := ⟨_, s.askEngine_eq⟩
  have hdrain := State.drain_notReady (n := s.txq.count) hu hl hq hask
  rw [ho] at hdrain ⊢
  exact exec_available_of_drain hp hr (by exact hu) (by exact hl) hdrain

/-- Settles O38: the drain ends in the turn of the frame it popped. -/
theorem drainLosesARejectedFrame : Obligations.DrainLosesARejectedFrame := by
  unfold Obligations.DrainLosesARejectedFrame
  intro s hp hr hu hl hq hrptr hf hask hask2
  have hdrain := State.drain_ready (n := s.txq.count) hu hl hq hrptr hask
  have hask' : s.askedAndPopped.askEngine.1 = false := by rw [s.askEngine_askedAndPopped]; exact hask2
  rw [State.drainTurn_rejected (s := s.askedAndPopped) hu hf hask', s.askedAndPopped_rejected] at hdrain
  exact exec_available_of_drain hp hr (by exact hu) (by exact hl) hdrain

/-! ### Refusals -/

/-- A Running-only operation in Stopped (rule R134). -/
theorem runningOnly_refused {s : State} {i : Instr} {k : Res State} (hperm : permitted s.issuer i = true)
    (hs : s.runState = .stopped) : withContext i s (whenRunning s k) = .refused (.misuse .notRunning) :=
  (withContext_permitted hperm).trans (whenRunning_stopped hs)

/-- A notification in Stopped (rule R158). -/
theorem notification_refused {s : State} {i : Instr} {k : Res State} (hperm : permitted s.issuer i = true)
    (hs : s.runState = .stopped) : withContext i s (whenNotifiable s k) = .refused .notifyWhileStopped :=
  (withContext_permitted hperm).trans (whenNotifiable_stopped hs)

theorem exec_beginRun_running {s : State} (hp : s.issuer = .poll) (hr : s.runState = .running) :
    exec .beginRun s = .refused (.misuse .beginWhileRunning) := by
  rw [exec, execBeginRun, withContext_permitted (permitted_of_poll hp rfl), hr]

theorem exec_send_tooLong {s : State} {f : FrameRecord} (hp : s.issuer = .poll) (hr : s.runState = .running)
    (hf : 8 < f.length.toNat) : exec (.send f) s = .refused (.misuse .encodeLength) := by
  rw [exec, execSend, withContext_permitted (permitted_of_poll hp rfl), whenRunning_running hr,
    if_neg (mt lengthValid_iff.1 (Nat.not_le_of_lt hf))]

theorem exec_available_tooLong {s : State} (hp : s.issuer = .poll) (hr : s.runState = .running) (hu : s.Undisturbed)
    (hl : s.params.syncLag = false) (hq : s.txq.count ≠ 0) (hrptr : s.txq.rptr < s.txq.cap) (hask : s.askEngine.1 = true)
    (hf : 8 < (s.txq.slotValue .tx s.txq.rptr).length.toNat) :
    exec .available s = .refused (.misuse .encodeLength) := by
  rw [exec_available_eq hp hr, State.drain_ready hu hl hq hrptr hask, State.drainTurn_refused hf]
  rfl

/-- Settles O33, by the condition that fails: the Transport state or a length. -/
theorem operationsOutOfPlaceAreRefused : Obligations.OperationsOutOfPlaceAreRefused := by
  unfold Obligations.OperationsOutOfPlaceAreRefused
  refine fun s f w => ⟨exec_beginRun_running, exec_send_tooLong, exec_available_tooLong, fun hp hs i hi => ?_,
    fun hn hs i hi => ?_⟩
  · have hperm : permitted s.issuer i = true := by
      rw [hp]
      revert i
      simp [permitted]
    simp only [List.mem_cons, List.not_mem_nil, or_false] at hi
    rcases hi with rfl | rfl | rfl | rfl | rfl <;> exact runningOnly_refused hperm hs
  · have hperm : permitted s.issuer i = true := by
      rw [hn]
      revert i
      simp [permitted]
    simp only [List.mem_cons, List.not_mem_nil, or_false] at hi
    rcases hi with rfl | rfl | rfl <;> exact notification_refused hperm hs

end Sys2Proof.Machine

/-! PROOF. O35, O36: what a whole AVAILABLE did. Wherever the drain stands, the frames gone from TXQ are those submitted,
in order, and at most one behind them that is popped and not accepted; where it ends, that one is the rejected frame. -/
namespace Sys2Proof.Machine

/-! ### The frames gone from TXQ -/

/-- `ws` are the encodings of the frames `sent`, in order (rule R90). -/
structure EncodedInOrder (sent : List FrameRecord) (ws : List WireMessage) : Prop where
  length : sent.length = ws.length
  encoded : ∀ p ∈ sent.zip ws, EncodedAs p.1 p.2

theorem EncodedInOrder.nil : EncodedInOrder [] [] := ⟨rfl, nofun⟩

theorem EncodedInOrder.append_one {sent : List FrameRecord} {ws : List WireMessage} {f : FrameRecord} {w : WireMessage}
    (h : EncodedInOrder sent ws) (hw : EncodedAs f w) : EncodedInOrder (sent ++ [f]) (ws ++ [w]) := by
  refine ⟨by rw [List.length_append, List.length_append, h.length]; rfl, fun p hp => ?_⟩
  rw [List.zip_append h.length] at hp
  rcases List.mem_append.1 hp with hp | hp
  · exact h.encoded p hp
  · obtain rfl : p = (f, w) := List.mem_singleton.1 hp
    exact hw

theorem EncodedInOrder.encodedAs {sent : List FrameRecord} {ws : List WireMessage} (h : EncodedInOrder sent ws) {k : Nat}
    {f : FrameRecord} {w : WireMessage} (hf : sent[k]? = some f) (hw : ws[k]? = some w) : EncodedAs f w :=
  h.encoded (f, w) (List.mem_of_getElem? (List.getElem?_zip_eq_some.2 ⟨hf, hw⟩))

/-- On the way from `s` to `t` frames left TXQ, oldest first: `engine_log` gained the encodings of all of them but the last
one `pending`, if there is one (rule R122). -/
structure State.Drained (s t : State) (pending : Option FrameRecord) : Prop where
  inv : t.QueuesInv
  pendingWf : ∀ f ∈ pending, f.wf = true
  gone : ∃ sent ws, s.waiting = sent ++ pending.toList ++ t.waiting ∧ t.engineLog = s.engineLog ++ ws ∧
    EncodedInOrder sent ws

theorem State.QueuesInv.drained {s : State} (h : s.QueuesInv) : s.Drained s none :=
  ⟨h, nofun, [], [], rfl, (List.append_nil _).symm, EncodedInOrder.nil⟩

theorem Memory.mem_of_read {m : Memory} {i : Nat} {f : FrameRecord} (h : Memory.read m i = some f) : (i, f) ∈ m := by
  induction m with
  | nil => cases h
  | cons p rest ih =>
    obtain ⟨j, g⟩ := p
    unfold Memory.read at h
    split at h
    case isTrue hj => cases h; exact hj ▸ List.mem_cons_self
    case isFalse => exact List.mem_cons_of_mem _ (ih h)

/-- The queued records are Frame Records (rule R20). -/
theorem Queue.Inv.contents_wf {lag : Bool} {q : Queue} {sel : QueueSel} (h : q.Inv lag) :
    ∀ f ∈ q.contents sel, f.wf = true := by
  intro f hf
  obtain ⟨k, hk, rfl⟩ := List.mem_map.1 hf
  obtain ⟨g, hg⟩ := Option.isSome_iff_exists.1 (h.queuedWritten k (List.mem_range.1 hk))
  rw [Queue.slotValue, hg]
  exact h.slotsRecords _ (Memory.mem_of_read hg)

theorem State.QueuesInv.waiting_wf {s : State} (h : s.QueuesInv) : ∀ f ∈ s.waiting, f.wf = true := h.2.contents_wf

theorem State.finish_waiting (s : State) (r : Result) (c : Option ErrorClass) : (s.finish r c).waiting = s.waiting := rfl

namespace State.Drained
variable {s t u : State} {p : Option FrameRecord} {f : FrameRecord}

theorem of_eq (h : s.Drained t p) (hi : u.QueuesInv) (hw : u.waiting = t.waiting) (hlog : u.engineLog = t.engineLog) :
    s.Drained u p := by
  refine ⟨hi, h.pendingWf, ?_⟩
  rw [hw, hlog]
  exact h.gone

theorem testEmpty (h : s.Drained t p) (sel : QueueSel) : s.Drained (t.testEmpty sel).2 p := by
  refine h.of_eq (h.inv.testEmpty sel) ?_ ?_ <;> cases sel <;> simp [State.testEmpty, State.flagQueue, State.waiting]

theorem askEngine (h : s.Drained t p) : s.Drained t.askEngine.2 p :=
  h.of_eq h.inv.askEngine (by simp [State.waiting]) t.askEngine_engineLog

theorem preempt (h : s.Drained t p) : Ends True t.preempt fun u => s.Drained u p :=
  ends_of_next fun u hu => by
    have hn := State.preempt_notifiedTo hu
    exact h.of_eq (h.inv.preempt hu) (by rw [State.waiting, hn.txq]; rfl) hn.engineLog

/-- The frame popped is pending. -/
theorem tryPop (h : s.Drained t none) : Ends True (t.tryPop .tx) fun r => s.Drained r.2 r.1 :=
  ends_of_next fun ⟨r, u⟩ hu => by
    obtain ⟨q, hq, rfl⟩ := State.tryPop_cases hu
    have hc : t.waiting = r.toList ++ q.contents .tx := h.inv.2.tryPop_contents hq
    obtain ⟨sent, ws, hw, hlog, henc⟩ := h.gone
    refine ⟨h.inv.tryPop hu, fun f hf => h.inv.waiting_wf f ?_, sent, ws, ?_, ?_, henc⟩
    · exact hc ▸ List.mem_append_left _ (Option.mem_toList.2 hf)
    · rw [hw, hc, Option.toList_none, List.append_nil, List.append_assoc]
      rfl
    · simpa using hlog

/-- An accepted frame is no longer pending: `engine_log` has its encoding. -/
theorem submit (h : s.Drained t (some f)) :
    Ends True (t.submit f) fun r => s.Drained r.2 (if r.1 then none else some f) :=
  ends_of_next fun r hr => by
    have hi := h.inv.submit (b := r.1) (t := r.2) hr
    obtain ⟨hlen, rfl⟩ := State.submit_cases hr
    obtain ⟨sent, ws, hw, hlog, henc⟩ := h.gone
    dsimp only
    split
    · have hw' : s.waiting = sent ++ [f] ++ [] ++ t.waiting := (List.append_nil _).symm ▸ hw
      refine ⟨hi, nofun, sent ++ [f], ws ++ [t.offered f], hw', by rw [hlog, List.append_assoc], ?_⟩
      exact henc.append_one (encodeFrame_encodedAs _ (h.pendingWf f rfl) (lengthValid_iff.1 hlen))
    · exact h.of_eq hi rfl (List.append_nil _)

theorem countSent (h : s.Drained t p) : s.Drained t.countSent p := h.of_eq h.inv rfl rfl

theorem countSendError (h : s.Drained t p) : s.Drained t.countSendError p := h.of_eq h.inv rfl rfl

/-- Where the drain ends, a pending frame is one it has seen rejected. -/
theorem drainTurn {again : State → Res (Bool × State)} (h : s.Drained t (some f))
    (hagain : ∀ u, s.Drained u none → Ends True (again u) fun d => ∃ p, s.Drained d.2 p ∧ p.isSome = d.1) :
    Ends True (t.drainTurn again f) fun d => ∃ p, s.Drained d.2 p ∧ p.isSome = d.1 := by
  refine h.submit.andThen fun r hr => hr.preempt.andThen fun u hu => ?_
  cases hok : r.1 <;> rw [hok] at hu
  case true => exact hu.countSent.preempt.andThen hagain
  case false => exact .next ⟨_, hu.countSendError, rfl⟩

theorem drain {fuel : Nat} (h : s.Drained t none) :
    Ends True (t.drain fuel) fun d => ∃ p, s.Drained d.2 p ∧ p.isSome = d.1 := by
  induction fuel generalizing t with
  | zero => exact .next ⟨_, h, rfl⟩
  | succ fuel ih =>
    unfold State.drain
    split
    · exact .next ⟨_, h.testEmpty .tx, rfl⟩
    · refine (h.testEmpty .tx).preempt.andThen fun a ha => ?_
      split
      · refine ha.askEngine.preempt.andThen fun b hb => hb.tryPop.andThen fun r hr => hr.preempt.andThen fun c hc => ?_
        cases hpop : r.1 with
        | none => exact .next ⟨_, hpop ▸ hc, rfl⟩
        | some f => exact State.Drained.drainTurn (hpop ▸ hc) fun _ => ih
      · exact .next ⟨_, ha.askEngine, rfl⟩

end State.Drained

/-- An AVAILABLE that answers has counted a send error for the frame left pending, if there is one (rule R122). -/
theorem exec_available_drained {s t : State} (hi : s.QueuesInv) (hp : s.issuer = .poll) (hr : s.runState = .running)
    (h : exec .available s = .next t) :
    ∃ u p r c, s.Drained u p ∧ s.SentTo u p.toList.length ∧ t = u.finish r c := by
  rw [exec_available_eq hp hr] at h
  obtain ⟨⟨b, d⟩, hd, h⟩ := andThen_eq_next.1 h
  obtain ⟨v, hv, h⟩ := andThen_eq_next.1 h
  cases h
  obtain ⟨p, hdrained, rfl⟩ := hi.drained.drain.of_next hd
  refine ⟨_, p, _, _, (hdrained.preempt.of_next hv).testEmpty .rx, ?_, rfl⟩
  have hs := ((State.drain_sentTo hd).trans (State.preempt_notifiedTo hv).sentTo).trans (v.testEmpty_sentTo .rx)
  cases p <;> exact hs

/-! ### The receive side, with no notification coming -/

/-- From `s` to `t` RXQ is the same, and neither a notification is coming nor a copy drawn (rules R39, R60). -/
structure State.RxqKept (s t : State) : Prop where
  rxq : t.rxq = s.rxq
  arrivals : t.arrivals = []
  noLag : t.params.syncLag = false

theorem State.RxqKept.of_eq {s t u : State} (h : s.RxqKept t) (hq : u.rxq = t.rxq) (ha : u.arrivals = t.arrivals)
    (hp : u.params = t.params) : s.RxqKept u :=
  ⟨hq.trans h.rxq, ha.trans h.arrivals, by rw [hp, h.noLag]⟩

theorem State.RxqKept.keptBySending (s : State) : State.KeptBySending True s.RxqKept where
  preempt h := by rw [State.preempt_quiet h.arrivals]; exact .next h
  askEngine h := h.of_eq (State.askEngine_rxq _) (State.askEngine_arrivals _) (State.askEngine_params _)
  testEmpty sel h := by rw [State.testEmpty_exact sel h.noLag]; exact h
  tryPop h := ends_of_next fun _ hu => by
    obtain ⟨q, -, hu⟩ := State.tryPop_cases hu
    exact h.of_eq (by simp [hu]) (by simp [hu]) (by simp [hu])
  submit f h := ends_of_next fun _ hu => by
    obtain ⟨-, rfl⟩ := State.submit_cases hu
    exact { h with }
  countSent h := { h with }
  countSendError h := { h with }
  finish r c h := { h with }

/-- AVAILABLE as its drain leaves it, when nothing disturbs it (rule R122). -/
theorem exec_available_of_quiet_drain {s u : State} {b : Bool} (hp : s.issuer = .poll) (hr : s.runState = .running)
    (ha : s.arrivals = []) (hl : s.params.syncLag = false) (h : s.drain (s.txq.count + 1) = .next (b, u)) :
    u.rxq = s.rxq ∧ exec .available s =
      .next (u.finish (.bool (decide (s.rxq.count ≠ 0))) (if b then some .engineRejected else none)) := by
  have hk : s.RxqKept u := ((State.RxqKept.keptBySending s).drain ⟨rfl, ha, hl⟩).of_next h
  have havail := exec_available_of_drain hp hr (.inr hk.arrivals) hk.noLag h
  exact ⟨hk.rxq, hk.rxq ▸ havail⟩

/-- Settles O35: it completes by O51; the frames gone are those the drain submitted and the one it saw rejected. -/
theorem availableCompletes : Obligations.AvailableCompletes := by
  unfold Obligations.AvailableCompletes
  intro s hi hp hr hw
  obtain ⟨t, ht⟩ := operationsInPlaceComplete .available s hi (permitted_of_poll hp rfl) ⟨hr, hw⟩
  obtain ⟨u, p, r, c, hd, hs, rfl⟩ := exec_available_drained hi.queuesInv hp hr ht
  obtain ⟨sent, ws, hwaiting, hlog, henc⟩ := hd.gone
  obtain ⟨rxq, txq, ws', n, a, o, rfl, -, hrptr, -, -⟩ := hs
  obtain rfl : ws' = ws := List.append_cancel_left hlog
  have hp1 : p.toList.length ≤ 1 := by cases p <;> simp
  refine ⟨_, ht, ⟨sent ++ p.toList, ws', hwaiting, rfl, rfl, ?_, fun k f w hf hk => ?_⟩, Nat.le_add_right _ _,
    Nat.add_le_add_left hp1 _, hrptr, rfl, fun ha hl => ?_⟩
  · rw [List.length_append, henc.length]
    exact congrArg (ws'.length + ·) (Nat.add_sub_cancel_left ..).symm
  · have hlt : k < sent.length := henc.length ▸ (List.getElem?_eq_some_iff.1 hk).1
    rw [List.getElem?_append_left hlt] at hf
    exact henc.encodedAs hf hk
  · have h := exec_available_eq hp hr ▸ ht
    obtain ⟨⟨b, d⟩, hdrain, -⟩ := andThen_eq_next.1 h
    obtain ⟨hrx, havail⟩ := exec_available_of_quiet_drain hp hr ha hl hdrain
    have e := Host.Outcome.next.inj (havail.symm.trans ht)
    exact ⟨(congrArg State.rxq e).symm.trans hrx, (congrArg State.result e).symm⟩

/-! ### An Engine that accepts everything -/

theorem State.askEngine_of_cons {s : State} {b : Bool} {bs : List Bool} (h : s.oracle.answers = b :: bs) :
    s.askEngine.1 = b ∧ s.askEngine.2.oracle.answers = bs := by
  rw [State.askEngine, h]
  exact ⟨rfl, rfl⟩

/-- A drainable state after the pop of its oldest frame (rules R26, R101). -/
theorem State.Drainable.pop {s t : State} (h : s.Drainable) (hl : s.params.syncLag = false) (hq : s.txq.count ≠ 0)
    (htx : t.txq = s.txq.afterPop) (hrx : t.rxq = s.rxq) (hp : t.params = s.params) :
    t.Drainable ∧ (s.txq.slotValue .tx s.txq.rptr).length.toNat ≤ 8 := by
  obtain ⟨⟨hrxq, htxq⟩, hlen⟩ := h
  have hflag : s.txq.emptyFlag s.params.syncLag = false := by rw [hl]; exact beq_eq_false_iff_ne.2 hq
  rw [State.waiting, Queue.contents_afterPop .tx htxq (Nat.pos_of_ne_zero hq), List.forall_mem_cons, ← htx] at hlen
  refine ⟨⟨⟨?_, ?_⟩, hlen.2⟩, hlen.1⟩
  · rw [hrx, hp]; exact hrxq
  · rw [htx, hp]; exact htxq.afterPop hflag

/-- While the Engine answers true, each turn submits a frame, until the drain finds TXQ empty (rule R135). -/
theorem State.Drainable.drain_accepted {n : Nat} {s : State} {rest : List Bool} (h : s.Drainable) (hu : s.Undisturbed)
    (hl : s.params.syncLag = false) (hn : s.txq.count = n)
    (ha : s.oracle.answers = List.replicate (2 * n) true ++ rest) :
    ∃ t, s.drain (n + 1) = .next (false, t) ∧ t.txq.count = 0 ∧ t.oracle.answers = rest := by
  induction n generalizing s with
  | zero => exact ⟨s, State.drain_empty hl hn, hn, ha⟩
  | succ n ih =>
    have ha : s.oracle.answers = true :: true :: (List.replicate (2 * n) true ++ rest) := ha
    have hq : s.txq.count ≠ 0 := by omega
    obtain ⟨hask, ha⟩ := State.askEngine_of_cons ha
    obtain ⟨hask', ha⟩ := State.askEngine_of_cons (s := s.askedAndPopped) ha
    obtain ⟨hdrainable, hlen⟩ :=
      h.pop (t := s.askedAndPopped.accepted (s.txq.slotValue .tx s.txq.rptr)) hl hq rfl rfl rfl
    rw [State.drain_ready hu hl hq h.1.2.rptrLt hask, State.drainTurn_accepted (s := s.askedAndPopped) hu hlen hask']
    exact ih hdrainable hu hl (congrArg (· - 1) hn) ha

/-- Settles O36: what AVAILABLE did in general (O35), with no frame rejected and none left. -/
theorem drainSendsEverythingInOrder : Obligations.DrainSendsEverythingInOrder := by
  unfold Obligations.DrainSendsEverythingInOrder
  intro s rest hi hp hr hu hl hw hanswers
  have ha : s.arrivals = [] := hu.resolve_left fun h => by simpa [h] using hi.startedRunning.2 hr
  obtain ⟨u, hdrain, hcount, hrest⟩ := State.Drainable.drain_accepted ⟨hi.queuesInv, hw⟩ hu hl rfl hanswers
  obtain ⟨-, havail⟩ := exec_available_of_quiet_drain hp hr ha hl hdrain
  obtain ⟨t, ht, ⟨gone, ws, hwaiting, hlog, hsent, hlen, henc⟩, -⟩ := availableCompletes s hi hp hr hw
  obtain rfl := Host.Outcome.next.inj (havail.symm.trans ht)
  have herr : u.sendErrors = s.sendErrors := by
    obtain ⟨_, _, _, _, _, _, rfl, -⟩ := State.drain_sentTo hdrain
    rfl
  have hnone : u.waiting = [] := Queue.contents_eq_nil .tx hcount
  have hgone : s.waiting = gone := by rw [hwaiting, State.finish_waiting, hnone, List.append_nil]
  have hws : ws.length = s.waiting.length := by
    rw [hgone, hlen, State.finish_sendErrors, herr, Nat.sub_self, Nat.add_zero]
  refine ⟨_, ws, havail, hcount, hnone, hlog, hws, hgone ▸ henc, ?_, herr, rfl, hrest⟩
  rw [hsent, hws, State.waiting, Queue.contents_length]

end Sys2Proof.Machine

/-! PROOF. O50: what a context may not issue is refused. Every operation asks for its context before anything else, so the
statement is the 'no' cells of `permitted` (rule R165). -/
namespace Sys2Proof.Machine

/-- Every operation is one under its context. -/
theorem exec_eq_withContext (i : Instr) (s : State) : ∃ k, exec i s = withContext i s k := by
  cases i <;> exact ⟨_, rfl⟩

theorem exec_of_not_permitted {i : Instr} {s : State} (h : permitted s.issuer i = false) :
    exec i s = .refused .wrongContext := by
  obtain ⟨k, hk⟩ := exec_eq_withContext i s
  rw [hk, withContext, if_neg (Bool.eq_false_iff.1 h)]

/-- Settles O50: in either context, the table does not permit the operations listed. -/
theorem contextsAreEnforced : Obligations.ContextsAreEnforced := by
  unfold Obligations.ContextsAreEnforced
  refine fun s f w => ⟨fun hp i hi => exec_of_not_permitted ?_, fun hn i hi => exec_of_not_permitted ?_⟩
  · rw [hp]
    revert i
    simp [permitted]
  · rw [hn]
    revert i
    simp [permitted]

end Sys2Proof.Machine

/-! PROOF. O45: RESET is STOP and then BEGIN. What STOP returned is the one thing in which the two runs differ when the Engine
is started; a notification does not read it, and BEGIN returns its own result over it. -/
namespace Sys2Proof.Machine

/-! ### Notifications do not read what an operation returned -/

theorem State.drawPick_finish (s : State) (r : Result) (c : Option ErrorClass) :
    (s.finish r c).drawPick = (s.drawPick.1, s.drawPick.2.finish r c) := by
  unfold State.drawPick State.finish
  dsimp only
  split
  · split <;> rfl
  · rfl

theorem State.tryPush_rx_finish (s : State) (f : FrameRecord) (r : Result) (c : Option ErrorClass) :
    (s.finish r c).tryPush .rx f = andThen (s.tryPush .rx f) fun p => .next (p.1, p.2.finish r c) := by
  rw [State.tryPush, State.tryPush, State.drawPick_finish, andThen_assoc]
  rfl

/-- A notification leaves the result and the error class where it finds them (rule R163). -/
theorem State.notify_finish (s : State) (n : Notification) (r : Result) (c : Option ErrorClass) :
    (s.finish r c).notify n = andThen (s.notify n) fun p => .next (p.1, p.2.finish r c) := by
  cases n with
  | rxComplete w =>
    rw [State.notify, State.tryPush_rx_finish, State.notify, andThen_assoc, andThen_assoc]
    rfl
  | txComplete w => rfl
  | error w => rfl

theorem State.serve_finish (s : State) (l : List Arrival) (r : Result) (c : Option ErrorClass) :
    (s.finish r c).serve l = andThen (s.serve l) fun t => .next (t.finish r c) := by
  induction l generalizing s with
  | nil => rfl
  | cons a rest ih =>
    obtain ⟨gap, n⟩ := a
    cases gap with
    | zero =>
      rw [State.serve_due, State.serve_due, State.notify_finish, andThen_assoc, andThen_assoc]
      exact andThen_congr fun p _ => ih p.2
    | succ g => rfl

theorem State.preempt_finish (s : State) (r : Result) (c : Option ErrorClass) :
    (s.finish r c).preempt = andThen s.preempt fun t => .next (t.finish r c) := by
  rw [State.preempt, State.preempt, State.finish_started, State.finish_arrivals]
  split
  · exact s.serve_finish s.arrivals r c
  · rfl

/-! ### STOP and BEGIN -/

/-- Going into Running overwrites what the operation before returned. -/
theorem State.enterRunning_finish (u : State) (r : Result) (c : Option ErrorClass) :
    (u.finish r c).enterRunning = u.enterRunning := by
  rw [State.enterRunning, State.preempt_finish, andThen_assoc]
  rfl

/-- Settles O45: after STOP, BEGIN starts the Engine in the state in which RESET does, but for what STOP returned. -/
theorem stopThenBeginIsReset : Obligations.StopThenBeginIsReset := by
  unfold Obligations.StopThenBeginIsReset
  intro s hp hr
  have hbegin := exec_beginRun_eq
    (s := State.finish { s.stopEngine with engine := .absent, runState := .stopped } .none none) hp rfl
  calc andThen (exec .stop s) (exec .beginRun)
    _ = exec .beginRun (State.finish { s.stopEngine with engine := .absent, runState := .stopped } .none none) :=
      congrArg (andThen · _) ((stopKeepsQueuesAndCounters s hp).1 hr)
    _ = State.enterRunning (State.finish { s.begun with runState := .stopped } .none none) := hbegin
    _ = State.enterRunning { s.begun with runState := .stopped } := State.enterRunning_finish _ _ _
    _ = exec .reset s := (exec_reset_eq hp hr).symm

end Sys2Proof.Machine

/-! PROOF. O1: what power-on reset leaves (rules R41, R180). -/
namespace Sys2Proof.Machine

/-- An empty queue has room as soon as it has a slot (rule R27). -/
theorem Queue.empty_not_full {cap : Nat} (h : 1 ≤ cap) : (Queue.empty cap).fullFlag false = false :=
  beq_false_of_ne (Nat.ne_of_lt h)

/-- Both queues are constructed empty, each with its own capacity. -/
theorem State.powerOn_queue (rxCap txCap : Nat) (cfg : Config.EngineConfig) (params : Config.Params) (q : QueueSel) :
    ∃ cap, (State.powerOn rxCap txCap cfg params).queue q = Queue.empty cap := by
  cases q with
  | rx => exact ⟨rxCap, rfl⟩
  | tx => exact ⟨txCap, rfl⟩

/-- Settles O1: the registers hold what the construction gives them, and an empty queue is not full. -/
theorem powerOnLeavesSpecValues : Obligations.PowerOnLeavesSpecValues := by
  unfold Obligations.PowerOnLeavesSpecValues
  refine ⟨fun rxCap txCap cfg params => ⟨⟨rfl, rfl, rfl, rfl⟩, fun q => ?_, Queue.empty_not_full, Queue.empty_not_full,
    rfl, rfl, rfl, rfl, rfl, rfl, rfl, rfl⟩, rfl, rfl, rfl, rfl⟩
  obtain ⟨cap, hq⟩ := State.powerOn_queue rxCap txCap cfg params q
  rw [hq]
  exact ⟨rfl, rfl, rfl, rfl, rfl, rfl⟩

end Sys2Proof.Machine
